-- ==== Sys2Proof/Word.lean ====
section
/-! DEFINITION. The two data widths of the hardware (spec/00_scope.md rule R9: 8 and 16 bits). -/

namespace Sys2Proof

/-- An 8-bit value: a memory byte, an IO byte, half of AX, BX, CX or DX. -/
abbrev Byte := BitVec 8

/-- A 16-bit value: a general or segment register, IP, FLAGS, an offset, a port number. -/
abbrev Word := BitVec 16

end Sys2Proof
end

