-- ==== Sys2Proof/Machine/Bits.lean ====
section
/-! DEFINITION. Byte order, sign extension and bit helpers (spec/00_scope.md rules R11, R12, R18). -/

namespace Sys2Proof

/-- `v[7:0]` of a word (R11). -/
def loByte (v : Word) : Byte := v.extractLsb' 0 8

/-- `v[15:8]` of a word (R11). -/
def hiByte (v : Word) : Byte := v.extractLsb' 8 8

/-- The word `hi:lo` (R11: `a:b` is `a * 2^width(b) + b`). -/
def mkWord (hi lo : Byte) : Word := hi ++ lo

/-- `sext_16` of a byte (R12). -/
def sext16 (v : Byte) : Word := v.signExtend 16

/-- `zext_16` of a byte (R12). -/
def zext16 (v : Byte) : Word := v.setWidth 16

/-- A Boolean as a `w`-bit 0 or 1. -/
def bit (w : Nat) (b : Bool) : BitVec w := (BitVec.ofBool b).setWidth w

/-- `parity8` (R18): whether the number of 1 bits of a byte is even. -/
def parity8 (v : Byte) : Bool := ((List.range 8).filter fun k => v.getLsbD k).length % 2 == 0

/-- The two bytes of a word in memory and instruction order, low byte first (R153, R209). -/
def le16 (v : Word) : List Byte := [loByte v, hiByte v]

/-- `f` applied `k` times (the `repeat k times` of spec/42_logic.md). -/
def iter {α : Type} (f : α → α) : Nat → α → α
  | 0, x => x
  | k + 1, x => iter f k (f x)

end Sys2Proof
end

