-- ==== Sys2Proof/Syntax.lean ====
section
/-! DEFINITION. Instructions as syntax: the operand forms of spec/30_encoding.md and one constructor per row of
spec/opcode_table.json (rows that only split one form by its mask share a constructor; the opcode 82 rows, which
share their mnemonics with those of opcode 80, have their own). Constructors with operands come first, in table order,
then those without. -/

namespace Sys2Proof

/-- R51: the general registers, in index order. -/
inductive Reg16 where
  | ax | cx | dx | bx | sp | bp | si | di
  deriving DecidableEq, Repr

/-- R52: the 8-bit halves of AX, CX, DX and BX, in index order. -/
inductive Reg8 where
  | al | cl | dl | bl | ah | ch | dh | bh
  deriving DecidableEq, Repr

/-- R54: the segment registers, in index order. -/
inductive SegReg where
  | es | cs | ss | ds
  deriving DecidableEq, Repr

/-- R206: the eight base and index combinations, in `rm` order. -/
inductive Base where
  | bxSi | bxDi | bpSi | bpDi | si | di | bp | bx
  deriving DecidableEq, Repr

/-- R206: a ModRM memory operand. -/
inductive Mem where
  /-- `mod = 00, rm = 110`: a direct 16-bit offset. -/
  | direct (d : Word)
  /-- `mod = 00`: no displacement; the base is not BP alone, whose place the direct form takes. -/
  | base (b : Base)
  /-- `mod = 01`: a sign-extended 8-bit displacement. -/
  | disp8 (b : Base) (d : Byte)
  /-- `mod = 10`: a 16-bit displacement. -/
  | disp16 (b : Base) (d : Word)
  deriving DecidableEq, Repr

/-- R205, R206: the 8-bit `rm` operand (`Eb`). -/
inductive RM8 where
  | reg (r : Reg8)
  | mem (m : Mem)
  deriving DecidableEq, Repr

/-- R205, R206: the 16-bit `rm` operand (`Ev`, `Ew`). -/
inductive RM16 where
  | reg (r : Reg16)
  | mem (m : Mem)
  deriving DecidableEq, Repr

/-- The instructions and prefixes of spec/opcode_table.json. -/
inductive Instr where
  /-- 00 ADD Eb,Gb (R403). -/
  | addEbGb (e : RM8) (g : Reg8)
  /-- 01 ADD Ev,Gv (R403). -/
  | addEvGv (e : RM16) (g : Reg16)
  /-- 02 ADD Gb,Eb (R403). -/
  | addGbEb (e : RM8) (g : Reg8)
  /-- 03 ADD Gv,Ev (R403). -/
  | addGvEv (e : RM16) (g : Reg16)
  /-- 04 ADD AL,Ib (R403). -/
  | addAlIb (v : Byte)
  /-- 05 ADD AX,Iv (R403). -/
  | addAxIv (v : Word)
  /-- 08 OR Eb,Gb (R502). -/
  | orEbGb (e : RM8) (g : Reg8)
  /-- 09 OR Ev,Gv (R502). -/
  | orEvGv (e : RM16) (g : Reg16)
  /-- 0A OR Gb,Eb (R502). -/
  | orGbEb (e : RM8) (g : Reg8)
  /-- 0B OR Gv,Ev (R502). -/
  | orGvEv (e : RM16) (g : Reg16)
  /-- 0C OR AL,Ib (R502). -/
  | orAlIb (v : Byte)
  /-- 0D OR AX,Iv (R502). -/
  | orAxIv (v : Word)
  /-- 10 ADC Eb,Gb (R404). -/
  | adcEbGb (e : RM8) (g : Reg8)
  /-- 11 ADC Ev,Gv (R404). -/
  | adcEvGv (e : RM16) (g : Reg16)
  /-- 12 ADC Gb,Eb (R404). -/
  | adcGbEb (e : RM8) (g : Reg8)
  /-- 13 ADC Gv,Ev (R404). -/
  | adcGvEv (e : RM16) (g : Reg16)
  /-- 14 ADC AL,Ib (R404). -/
  | adcAlIb (v : Byte)
  /-- 15 ADC AX,Iv (R404). -/
  | adcAxIv (v : Word)
  /-- 18 SBB Eb,Gb (R406). -/
  | sbbEbGb (e : RM8) (g : Reg8)
  /-- 19 SBB Ev,Gv (R406). -/
  | sbbEvGv (e : RM16) (g : Reg16)
  /-- 1A SBB Gb,Eb (R406). -/
  | sbbGbEb (e : RM8) (g : Reg8)
  /-- 1B SBB Gv,Ev (R406). -/
  | sbbGvEv (e : RM16) (g : Reg16)
  /-- 1C SBB AL,Ib (R406). -/
  | sbbAlIb (v : Byte)
  /-- 1D SBB AX,Iv (R406). -/
  | sbbAxIv (v : Word)
  /-- 20 AND Eb,Gb (R501). -/
  | andEbGb (e : RM8) (g : Reg8)
  /-- 21 AND Ev,Gv (R501). -/
  | andEvGv (e : RM16) (g : Reg16)
  /-- 22 AND Gb,Eb (R501). -/
  | andGbEb (e : RM8) (g : Reg8)
  /-- 23 AND Gv,Ev (R501). -/
  | andGvEv (e : RM16) (g : Reg16)
  /-- 24 AND AL,Ib (R501). -/
  | andAlIb (v : Byte)
  /-- 25 AND AX,Iv (R501). -/
  | andAxIv (v : Word)
  /-- 28 SUB Eb,Gb (R405). -/
  | subEbGb (e : RM8) (g : Reg8)
  /-- 29 SUB Ev,Gv (R405). -/
  | subEvGv (e : RM16) (g : Reg16)
  /-- 2A SUB Gb,Eb (R405). -/
  | subGbEb (e : RM8) (g : Reg8)
  /-- 2B SUB Gv,Ev (R405). -/
  | subGvEv (e : RM16) (g : Reg16)
  /-- 2C SUB AL,Ib (R405). -/
  | subAlIb (v : Byte)
  /-- 2D SUB AX,Iv (R405). -/
  | subAxIv (v : Word)
  /-- 30 XOR Eb,Gb (R503). -/
  | xorEbGb (e : RM8) (g : Reg8)
  /-- 31 XOR Ev,Gv (R503). -/
  | xorEvGv (e : RM16) (g : Reg16)
  /-- 32 XOR Gb,Eb (R503). -/
  | xorGbEb (e : RM8) (g : Reg8)
  /-- 33 XOR Gv,Ev (R503). -/
  | xorGvEv (e : RM16) (g : Reg16)
  /-- 34 XOR AL,Ib (R503). -/
  | xorAlIb (v : Byte)
  /-- 35 XOR AX,Iv (R503). -/
  | xorAxIv (v : Word)
  /-- 38 CMP Eb,Gb (R407). -/
  | cmpEbGb (e : RM8) (g : Reg8)
  /-- 39 CMP Ev,Gv (R407). -/
  | cmpEvGv (e : RM16) (g : Reg16)
  /-- 3A CMP Gb,Eb (R407). -/
  | cmpGbEb (e : RM8) (g : Reg8)
  /-- 3B CMP Gv,Ev (R407). -/
  | cmpGvEv (e : RM16) (g : Reg16)
  /-- 3C CMP AL,Ib (R407). -/
  | cmpAlIb (v : Byte)
  /-- 3D CMP AX,Iv (R407). -/
  | cmpAxIv (v : Word)
  /-- 70 JO Jb (R615). -/
  | joJb (v : Byte)
  /-- 71 JNO Jb (R616). -/
  | jnoJb (v : Byte)
  /-- 72 JB Jb (R617). -/
  | jbJb (v : Byte)
  /-- 73 JNB Jb (R618). -/
  | jnbJb (v : Byte)
  /-- 74 JZ Jb (R619). -/
  | jzJb (v : Byte)
  /-- 75 JNZ Jb (R620). -/
  | jnzJb (v : Byte)
  /-- 76 JBE Jb (R621). -/
  | jbeJb (v : Byte)
  /-- 77 JA Jb (R622). -/
  | jaJb (v : Byte)
  /-- 78 JS Jb (R623). -/
  | jsJb (v : Byte)
  /-- 79 JNS Jb (R624). -/
  | jnsJb (v : Byte)
  /-- 7A JP Jb (R625). -/
  | jpJb (v : Byte)
  /-- 7B JNP Jb (R626). -/
  | jnpJb (v : Byte)
  /-- 7C JL Jb (R627). -/
  | jlJb (v : Byte)
  /-- 7D JGE Jb (R628). -/
  | jgeJb (v : Byte)
  /-- 7E JLE Jb (R629). -/
  | jleJb (v : Byte)
  /-- 7F JG Jb (R630). -/
  | jgJb (v : Byte)
  /-- 80 /0 ADD Eb,Ib (R403). -/
  | addEbIb (e : RM8) (v : Byte)
  /-- 80 /1 OR Eb,Ib (R502). -/
  | orEbIb (e : RM8) (v : Byte)
  /-- 80 /2 ADC Eb,Ib (R404). -/
  | adcEbIb (e : RM8) (v : Byte)
  /-- 80 /3 SBB Eb,Ib (R406). -/
  | sbbEbIb (e : RM8) (v : Byte)
  /-- 80 /4 AND Eb,Ib (R501). -/
  | andEbIb (e : RM8) (v : Byte)
  /-- 80 /5 SUB Eb,Ib (R405). -/
  | subEbIb (e : RM8) (v : Byte)
  /-- 80 /6 XOR Eb,Ib (R503). -/
  | xorEbIb (e : RM8) (v : Byte)
  /-- 80 /7 CMP Eb,Ib (R407). -/
  | cmpEbIb (e : RM8) (v : Byte)
  /-- 81 /0 ADD Ev,Iv (R403). -/
  | addEvIv (e : RM16) (v : Word)
  /-- 81 /1 OR Ev,Iv (R502). -/
  | orEvIv (e : RM16) (v : Word)
  /-- 81 /2 ADC Ev,Iv (R404). -/
  | adcEvIv (e : RM16) (v : Word)
  /-- 81 /3 SBB Ev,Iv (R406). -/
  | sbbEvIv (e : RM16) (v : Word)
  /-- 81 /4 AND Ev,Iv (R501). -/
  | andEvIv (e : RM16) (v : Word)
  /-- 81 /5 SUB Ev,Iv (R405). -/
  | subEvIv (e : RM16) (v : Word)
  /-- 81 /6 XOR Ev,Iv (R503). -/
  | xorEvIv (e : RM16) (v : Word)
  /-- 81 /7 CMP Ev,Iv (R407). -/
  | cmpEvIv (e : RM16) (v : Word)
  /-- 82 /0 ADD Eb,Ib (R403). -/
  | addEbIb82 (e : RM8) (v : Byte)
  /-- 82 /1 OR Eb,Ib (R502). -/
  | orEbIb82 (e : RM8) (v : Byte)
  /-- 82 /2 ADC Eb,Ib (R404). -/
  | adcEbIb82 (e : RM8) (v : Byte)
  /-- 82 /3 SBB Eb,Ib (R406). -/
  | sbbEbIb82 (e : RM8) (v : Byte)
  /-- 82 /4 AND Eb,Ib (R501). -/
  | andEbIb82 (e : RM8) (v : Byte)
  /-- 82 /5 SUB Eb,Ib (R405). -/
  | subEbIb82 (e : RM8) (v : Byte)
  /-- 82 /6 XOR Eb,Ib (R503). -/
  | xorEbIb82 (e : RM8) (v : Byte)
  /-- 82 /7 CMP Eb,Ib (R407). -/
  | cmpEbIb82 (e : RM8) (v : Byte)
  /-- 83 /0 ADD Ev,Ib (R403). -/
  | addEvIb (e : RM16) (v : Byte)
  /-- 83 /1 OR Ev,Ib (R502). -/
  | orEvIb (e : RM16) (v : Byte)
  /-- 83 /2 ADC Ev,Ib (R404). -/
  | adcEvIb (e : RM16) (v : Byte)
  /-- 83 /3 SBB Ev,Ib (R406). -/
  | sbbEvIb (e : RM16) (v : Byte)
  /-- 83 /4 AND Ev,Ib (R501). -/
  | andEvIb (e : RM16) (v : Byte)
  /-- 83 /5 SUB Ev,Ib (R405). -/
  | subEvIb (e : RM16) (v : Byte)
  /-- 83 /6 XOR Ev,Ib (R503). -/
  | xorEvIb (e : RM16) (v : Byte)
  /-- 83 /7 CMP Ev,Ib (R407). -/
  | cmpEvIb (e : RM16) (v : Byte)
  /-- 84 TEST Eb,Gb (R504). -/
  | testEbGb (e : RM8) (g : Reg8)
  /-- 85 TEST Ev,Gv (R504). -/
  | testEvGv (e : RM16) (g : Reg16)
  /-- 86 XCHG Eb,Gb (R313). -/
  | xchgEbGb (e : RM8) (g : Reg8)
  /-- 87 XCHG Ev,Gv (R313). -/
  | xchgEvGv (e : RM16) (g : Reg16)
  /-- 88 MOV Eb,Gb (R301). -/
  | movEbGb (e : RM8) (g : Reg8)
  /-- 89 MOV Ev,Gv (R301). -/
  | movEvGv (e : RM16) (g : Reg16)
  /-- 8A MOV Gb,Eb (R301). -/
  | movGbEb (e : RM8) (g : Reg8)
  /-- 8B MOV Gv,Ev (R301). -/
  | movGvEv (e : RM16) (g : Reg16)
  /-- 8C MOV Ew,Sw (R302). -/
  | movEwSw (e : RM16) (sr : SegReg)
  /-- 8D LEA Gv,M (R321). -/
  | leaGvM (m : Mem) (g : Reg16)
  /-- 8E /0 MOV Sw,Ew (ES) (R303). -/
  | movSwEwEs (e : RM16)
  /-- 8E MOV Sw,Ew (SS, DS) (R303). -/
  | movSwEwSsDs (e : RM16) (sr : SegReg)
  /-- 8F /0 POP Ev (R312). -/
  | popEv (e : RM16)
  /-- 9A CALL Ap (R607). -/
  | callAp (off : Word) (seg : Word)
  /-- A0 MOV AL,Ob (R306). -/
  | movAlOb (v : Word)
  /-- A1 MOV AX,Ov (R306). -/
  | movAxOv (v : Word)
  /-- A2 MOV Ob,AL (R306). -/
  | movObAl (v : Word)
  /-- A3 MOV Ov,AX (R306). -/
  | movOvAx (v : Word)
  /-- A8 TEST AL,Ib (R504). -/
  | testAlIb (v : Byte)
  /-- A9 TEST AX,Iv (R504). -/
  | testAxIv (v : Word)
  /-- B0 MOV AL,Ib (R304). -/
  | movAlIb (v : Byte)
  /-- B8 MOV AX,Iv (R304). -/
  | movAxIv (v : Word)
  /-- B1 MOV CL,Ib (R304). -/
  | movClIb (v : Byte)
  /-- B9 MOV CX,Iv (R304). -/
  | movCxIv (v : Word)
  /-- B2 MOV DL,Ib (R304). -/
  | movDlIb (v : Byte)
  /-- BA MOV DX,Iv (R304). -/
  | movDxIv (v : Word)
  /-- B3 MOV BL,Ib (R304). -/
  | movBlIb (v : Byte)
  /-- BB MOV BX,Iv (R304). -/
  | movBxIv (v : Word)
  /-- B4 MOV AH,Ib (R304). -/
  | movAhIb (v : Byte)
  /-- BC MOV SP,Iv (R304). -/
  | movSpIv (v : Word)
  /-- B5 MOV CH,Ib (R304). -/
  | movChIb (v : Byte)
  /-- BD MOV BP,Iv (R304). -/
  | movBpIv (v : Word)
  /-- B6 MOV DH,Ib (R304). -/
  | movDhIb (v : Byte)
  /-- BE MOV SI,Iv (R304). -/
  | movSiIv (v : Word)
  /-- B7 MOV BH,Ib (R304). -/
  | movBhIb (v : Byte)
  /-- BF MOV DI,Iv (R304). -/
  | movDiIv (v : Word)
  /-- C2 RET Iw (R611). -/
  | retIw (v : Word)
  /-- C4 LES Gv,Mp (R323). -/
  | lesGvMp (m : Mem) (g : Reg16)
  /-- C5 LDS Gv,Mp (R322). -/
  | ldsGvMp (m : Mem) (g : Reg16)
  /-- C6 /0 MOV Eb,Ib (R305). -/
  | movEbIb (e : RM8) (v : Byte)
  /-- C7 /0 MOV Ev,Iv (R305). -/
  | movEvIv (e : RM16) (v : Word)
  /-- CA RETF Iw (R613). -/
  | retfIw (v : Word)
  /-- CD INT Ib (R635). -/
  | intIb (v : Byte)
  /-- D0 /0 ROL Eb,1 (R507). -/
  | rolEb1 (e : RM8)
  /-- D0 /1 ROR Eb,1 (R508). -/
  | rorEb1 (e : RM8)
  /-- D0 /2 RCL Eb,1 (R509). -/
  | rclEb1 (e : RM8)
  /-- D0 /3 RCR Eb,1 (R510). -/
  | rcrEb1 (e : RM8)
  /-- D0 /4 SHL Eb,1 (R511). -/
  | shlEb1 (e : RM8)
  /-- D0 /5 SHR Eb,1 (R512). -/
  | shrEb1 (e : RM8)
  /-- D0 /7 SAR Eb,1 (R513). -/
  | sarEb1 (e : RM8)
  /-- D1 /0 ROL Ev,1 (R507). -/
  | rolEv1 (e : RM16)
  /-- D1 /1 ROR Ev,1 (R508). -/
  | rorEv1 (e : RM16)
  /-- D1 /2 RCL Ev,1 (R509). -/
  | rclEv1 (e : RM16)
  /-- D1 /3 RCR Ev,1 (R510). -/
  | rcrEv1 (e : RM16)
  /-- D1 /4 SHL Ev,1 (R511). -/
  | shlEv1 (e : RM16)
  /-- D1 /5 SHR Ev,1 (R512). -/
  | shrEv1 (e : RM16)
  /-- D1 /7 SAR Ev,1 (R513). -/
  | sarEv1 (e : RM16)
  /-- D2 /0 ROL Eb,CL (R507). -/
  | rolEbCl (e : RM8)
  /-- D2 /1 ROR Eb,CL (R508). -/
  | rorEbCl (e : RM8)
  /-- D2 /2 RCL Eb,CL (R509). -/
  | rclEbCl (e : RM8)
  /-- D2 /3 RCR Eb,CL (R510). -/
  | rcrEbCl (e : RM8)
  /-- D2 /4 SHL Eb,CL (R511). -/
  | shlEbCl (e : RM8)
  /-- D2 /5 SHR Eb,CL (R512). -/
  | shrEbCl (e : RM8)
  /-- D2 /7 SAR Eb,CL (R513). -/
  | sarEbCl (e : RM8)
  /-- D3 /0 ROL Ev,CL (R507). -/
  | rolEvCl (e : RM16)
  /-- D3 /1 ROR Ev,CL (R508). -/
  | rorEvCl (e : RM16)
  /-- D3 /2 RCL Ev,CL (R509). -/
  | rclEvCl (e : RM16)
  /-- D3 /3 RCR Ev,CL (R510). -/
  | rcrEvCl (e : RM16)
  /-- D3 /4 SHL Ev,CL (R511). -/
  | shlEvCl (e : RM16)
  /-- D3 /5 SHR Ev,CL (R512). -/
  | shrEvCl (e : RM16)
  /-- D3 /7 SAR Ev,CL (R513). -/
  | sarEvCl (e : RM16)
  /-- D4 AAM Ib (R419). -/
  | aamIb (v : Byte)
  /-- D5 AAD Ib (R420). -/
  | aadIb (v : Byte)
  /-- D8 ESC 0,Ev (R709). -/
  | esc0Ev (e : RM16) (x : BitVec 3)
  /-- D9 ESC 1,Ev (R709). -/
  | esc1Ev (e : RM16) (x : BitVec 3)
  /-- DA ESC 2,Ev (R709). -/
  | esc2Ev (e : RM16) (x : BitVec 3)
  /-- DB ESC 3,Ev (R709). -/
  | esc3Ev (e : RM16) (x : BitVec 3)
  /-- DC ESC 4,Ev (R709). -/
  | esc4Ev (e : RM16) (x : BitVec 3)
  /-- DD ESC 5,Ev (R709). -/
  | esc5Ev (e : RM16) (x : BitVec 3)
  /-- DE ESC 6,Ev (R709). -/
  | esc6Ev (e : RM16) (x : BitVec 3)
  /-- DF ESC 7,Ev (R709). -/
  | esc7Ev (e : RM16) (x : BitVec 3)
  /-- E0 LOOPNZ Jb (R633). -/
  | loopnzJb (v : Byte)
  /-- E1 LOOPZ Jb (R632). -/
  | loopzJb (v : Byte)
  /-- E2 LOOP Jb (R631). -/
  | loopJb (v : Byte)
  /-- E3 JCXZ Jb (R634). -/
  | jcxzJb (v : Byte)
  /-- E4 IN AL,Ib (R316). -/
  | inAlIb (v : Byte)
  /-- E5 IN AX,Ib (R316). -/
  | inAxIb (v : Byte)
  /-- E6 OUT Ib,AL (R318). -/
  | outIbAl (v : Byte)
  /-- E7 OUT Ib,AX (R318). -/
  | outIbAx (v : Byte)
  /-- E8 CALL Jv (R606). -/
  | callJv (v : Word)
  /-- E9 JMP Jv (R602). -/
  | jmpJv (v : Word)
  /-- EA JMP Ap (R603). -/
  | jmpAp (off : Word) (seg : Word)
  /-- EB JMP Jb (R601). -/
  | jmpJb (v : Byte)
  /-- F6 /0 TEST Eb,Ib (R504). -/
  | testEbIb (e : RM8) (v : Byte)
  /-- F6 /2 NOT Eb (R505). -/
  | notEb (e : RM8)
  /-- F6 /3 NEG Eb (R410). -/
  | negEb (e : RM8)
  /-- F6 /4 MUL Eb (R411). -/
  | mulEb (e : RM8)
  /-- F6 /5 IMUL Eb (R412). -/
  | imulEb (e : RM8)
  /-- F6 /6 DIV Eb (R413). -/
  | divEb (e : RM8)
  /-- F6 /7 IDIV Eb (R414). -/
  | idivEb (e : RM8)
  /-- F7 /0 TEST Ev,Iv (R504). -/
  | testEvIv (e : RM16) (v : Word)
  /-- F7 /2 NOT Ev (R505). -/
  | notEv (e : RM16)
  /-- F7 /3 NEG Ev (R410). -/
  | negEv (e : RM16)
  /-- F7 /4 MUL Ev (R411). -/
  | mulEv (e : RM16)
  /-- F7 /5 IMUL Ev (R412). -/
  | imulEv (e : RM16)
  /-- F7 /6 DIV Ev (R413). -/
  | divEv (e : RM16)
  /-- F7 /7 IDIV Ev (R414). -/
  | idivEv (e : RM16)
  /-- FE /0 INC Eb (R408). -/
  | incEb (e : RM8)
  /-- FE /1 DEC Eb (R409). -/
  | decEb (e : RM8)
  /-- FE /7 CALLBACK Iw (R712). -/
  | callbackIw (rm : BitVec 3) (id : Word)
  /-- FF /0 INC Ev (R408). -/
  | incEv (e : RM16)
  /-- FF /1 DEC Ev (R409). -/
  | decEv (e : RM16)
  /-- FF /2 CALL Ev (R608). -/
  | callEv (e : RM16)
  /-- FF /3 CALL Mp (R609). -/
  | callMp (m : Mem)
  /-- FF /4 JMP Ev (R604). -/
  | jmpEv (e : RM16)
  /-- FF /5 JMP Mp (R605). -/
  | jmpMp (m : Mem)
  /-- FF /6 PUSH Ev (R309). -/
  | pushEv (e : RM16)
  /-- An undefined encoding (R218, R713): its opcode and, where the opcode has one, its ModRM byte. -/
  | ud (op : Byte) (m : Option Byte)
  /-- 06 PUSH ES (R308). -/
  | pushEs
  /-- 07 POP ES (R311). -/
  | popEs
  /-- 0E PUSH CS (R308). -/
  | pushCs
  /-- 16 PUSH SS (R308). -/
  | pushSs
  /-- 17 POP SS (R311). -/
  | popSs
  /-- 1E PUSH DS (R308). -/
  | pushDs
  /-- 1F POP DS (R311). -/
  | popDs
  /-- 27 DAA (R417). -/
  | daa
  /-- 2F DAS (R418). -/
  | das
  /-- 37 AAA (R415). -/
  | aaa
  /-- 3F AAS (R416). -/
  | aas
  /-- 26 ES: (segment override prefix) (R711). -/
  | segEs
  /-- 2E CS: (segment override prefix) (R711). -/
  | segCs
  /-- 36 SS: (segment override prefix) (R711). -/
  | segSs
  /-- 3E DS: (segment override prefix) (R711). -/
  | segDs
  /-- 40 INC AX (R408). -/
  | incAx
  /-- 48 DEC AX (R409). -/
  | decAx
  /-- 50 PUSH AX (R307). -/
  | pushAx
  /-- 58 POP AX (R310). -/
  | popAx
  /-- 41 INC CX (R408). -/
  | incCx
  /-- 49 DEC CX (R409). -/
  | decCx
  /-- 51 PUSH CX (R307). -/
  | pushCx
  /-- 59 POP CX (R310). -/
  | popCx
  /-- 42 INC DX (R408). -/
  | incDx
  /-- 4A DEC DX (R409). -/
  | decDx
  /-- 52 PUSH DX (R307). -/
  | pushDx
  /-- 5A POP DX (R310). -/
  | popDx
  /-- 43 INC BX (R408). -/
  | incBx
  /-- 4B DEC BX (R409). -/
  | decBx
  /-- 53 PUSH BX (R307). -/
  | pushBx
  /-- 5B POP BX (R310). -/
  | popBx
  /-- 44 INC SP (R408). -/
  | incSp
  /-- 4C DEC SP (R409). -/
  | decSp
  /-- 54 PUSH SP (R307). -/
  | pushSp
  /-- 5C POP SP (R310). -/
  | popSp
  /-- 45 INC BP (R408). -/
  | incBp
  /-- 4D DEC BP (R409). -/
  | decBp
  /-- 55 PUSH BP (R307). -/
  | pushBp
  /-- 5D POP BP (R310). -/
  | popBp
  /-- 46 INC SI (R408). -/
  | incSi
  /-- 4E DEC SI (R409). -/
  | decSi
  /-- 56 PUSH SI (R307). -/
  | pushSi
  /-- 5E POP SI (R310). -/
  | popSi
  /-- 47 INC DI (R408). -/
  | incDi
  /-- 4F DEC DI (R409). -/
  | decDi
  /-- 57 PUSH DI (R307). -/
  | pushDi
  /-- 5F POP DI (R310). -/
  | popDi
  /-- 90 NOP (R315). -/
  | nop
  /-- 91 XCHG CX,AX (R314). -/
  | xchgCxAx
  /-- 92 XCHG DX,AX (R314). -/
  | xchgDxAx
  /-- 93 XCHG BX,AX (R314). -/
  | xchgBxAx
  /-- 94 XCHG SP,AX (R314). -/
  | xchgSpAx
  /-- 95 XCHG BP,AX (R314). -/
  | xchgBpAx
  /-- 96 XCHG SI,AX (R314). -/
  | xchgSiAx
  /-- 97 XCHG DI,AX (R314). -/
  | xchgDiAx
  /-- 98 CBW (R421). -/
  | cbw
  /-- 99 CWD (R422). -/
  | cwd
  /-- 9B WAIT (R708). -/
  | wait
  /-- 9C PUSHF (R326). -/
  | pushf
  /-- 9D POPF (R327). -/
  | popf
  /-- 9E SAHF (R325). -/
  | sahf
  /-- 9F LAHF (R324). -/
  | lahf
  /-- A4 MOVSB (R554). -/
  | movsb
  /-- A5 MOVSW (R554). -/
  | movsw
  /-- A6 CMPSB (R555). -/
  | cmpsb
  /-- A7 CMPSW (R555). -/
  | cmpsw
  /-- AA STOSB (R558). -/
  | stosb
  /-- AB STOSW (R558). -/
  | stosw
  /-- AC LODSB (R557). -/
  | lodsb
  /-- AD LODSW (R557). -/
  | lodsw
  /-- AE SCASB (R556). -/
  | scasb
  /-- AF SCASW (R556). -/
  | scasw
  /-- C3 RET (R610). -/
  | ret
  /-- CB RETF (R612). -/
  | retf
  /-- CC INT3 (R636). -/
  | int3
  /-- CE INTO (R637). -/
  | into
  /-- CF IRET (R638). -/
  | iret
  /-- D7 XLAT (R320). -/
  | xlat
  /-- EC IN AL,DX (R317). -/
  | inAlDx
  /-- ED IN AX,DX (R317). -/
  | inAxDx
  /-- EE OUT DX,AL (R319). -/
  | outDxAl
  /-- EF OUT DX,AX (R319). -/
  | outDxAx
  /-- F0 LOCK (prefix) (R710). -/
  | lock
  /-- F2 REPNE (prefix) (R711). -/
  | repne
  /-- F3 REP (prefix) (R711). -/
  | rep
  /-- F4 HLT (R707). -/
  | hlt
  /-- F5 CMC (R702). -/
  | cmc
  /-- F8 CLC (R700). -/
  | clc
  /-- F9 STC (R701). -/
  | stc
  /-- FA CLI (R705). -/
  | cli
  /-- FB STI (R706). -/
  | sti
  /-- FC CLD (R703). -/
  | cld
  /-- FD STD (R704). -/
  | std
  deriving DecidableEq, Repr

end Sys2Proof
end

