-- ==== Sys2Proof/WellFormed.lean ====
section
/-! DEFINITION. Which terms of `Instr` stand for an encoding (spec/30_encoding.md rules R206, R215, R216, R218). -/

namespace Sys2Proof

/-- R206: the base BP without a displacement has no encoding (`mod = 00, rm = 110` is the direct form). -/
def Mem.wf : Mem → Bool
  | .direct _ => true
  | .base b => b != .bp
  | .disp8 _ _ => true
  | .disp16 _ _ => true

def RM8.wf : RM8 → Bool
  | .reg _ => true
  | .mem m => m.wf

def RM16.wf : RM16 → Bool
  | .reg _ => true
  | .mem m => m.wf

/-- R218, first list: the opcodes that are undefined whatever follows. -/
def undefinedOpcode (op : Nat) : Bool :=
  op == 0x0F || (0x60 ≤ op && op ≤ 0x6F) || op == 0xC0 || op == 0xC1 || op == 0xC8 || op == 0xC9 || op == 0xD6
    || op == 0xF1

/-- R218, the rest: the ModRM bytes `m` (fields `mod`, `reg`) that are undefined after opcode `op`: the group entries and
the restrictions of rule R215. -/
def undefinedModRM (op md reg : Nat) : Bool :=
  (0xD0 ≤ op && op ≤ 0xD3 && reg == 6)
    || ((op == 0xF6 || op == 0xF7) && reg == 1)
    || (op == 0xFE && ((2 ≤ reg && reg ≤ 6) || (reg == 7 && md != 3)))
    || (op == 0xFF && (reg == 7 || ((reg == 3 || reg == 5) && md == 3)))
    || (op == 0x8C && 4 ≤ reg)
    || (op == 0x8E && (4 ≤ reg || reg == 1))
    || ((op == 0x8F || op == 0xC6 || op == 0xC7) && reg != 0)
    || ((op == 0x8D || op == 0xC4 || op == 0xC5) && md == 3)

/-- R218: the term `ud op m` stands for an encoding rule R218 lists. -/
def undefinedEncoding (op : Byte) : Option Byte → Bool
  | none => undefinedOpcode op.toNat
  | some m => undefinedModRM op.toNat (m.toNat / 64) (m.toNat / 8 % 8)

/-- The instruction has an encoding. -/
def Instr.wf : Instr → Bool
  | .addAlIb _ | .addAxIv _ | .orAlIb _ | .orAxIv _ | .adcAlIb _ | .adcAxIv _ | .sbbAlIb _ | .sbbAxIv _ |
    .andAlIb _ | .andAxIv _ | .subAlIb _ | .subAxIv _ | .xorAlIb _ | .xorAxIv _ | .cmpAlIb _ | .cmpAxIv _ |
    .joJb _ | .jnoJb _ | .jbJb _ | .jnbJb _ | .jzJb _ | .jnzJb _ | .jbeJb _ | .jaJb _ | .jsJb _ | .jnsJb _ |
    .jpJb _ | .jnpJb _ | .jlJb _ | .jgeJb _ | .jleJb _ | .jgJb _ | .callAp _ _ | .movAlOb _ | .movAxOv _ |
    .movObAl _ | .movOvAx _ | .testAlIb _ | .testAxIv _ | .movAlIb _ | .movAxIv _ | .movClIb _ | .movCxIv _ |
    .movDlIb _ | .movDxIv _ | .movBlIb _ | .movBxIv _ | .movAhIb _ | .movSpIv _ | .movChIb _ | .movBpIv _ |
    .movDhIb _ | .movSiIv _ | .movBhIb _ | .movDiIv _ | .retIw _ | .retfIw _ | .intIb _ | .aamIb _ | .aadIb _ |
    .loopnzJb _ | .loopzJb _ | .loopJb _ | .jcxzJb _ | .inAlIb _ | .inAxIb _ | .outIbAl _ | .outIbAx _ |
    .callJv _ | .jmpJv _ | .jmpAp _ _ | .jmpJb _ | .callbackIw _ _ | .pushEs | .popEs | .pushCs | .pushSs |
    .popSs | .pushDs | .popDs | .daa | .das | .aaa | .aas | .segEs | .segCs | .segSs | .segDs | .incAx | .decAx |
    .pushAx | .popAx | .incCx | .decCx | .pushCx | .popCx | .incDx | .decDx | .pushDx | .popDx | .incBx | .decBx |
    .pushBx | .popBx | .incSp | .decSp | .pushSp | .popSp | .incBp | .decBp | .pushBp | .popBp | .incSi | .decSi |
    .pushSi | .popSi | .incDi | .decDi | .pushDi | .popDi | .nop | .xchgCxAx | .xchgDxAx | .xchgBxAx | .xchgSpAx |
    .xchgBpAx | .xchgSiAx | .xchgDiAx | .cbw | .cwd | .wait | .pushf | .popf | .sahf | .lahf | .movsb | .movsw |
    .cmpsb | .cmpsw | .stosb | .stosw | .lodsb | .lodsw | .scasb | .scasw | .ret | .retf | .int3 | .into | .iret |
    .xlat | .inAlDx | .inAxDx | .outDxAl | .outDxAx | .lock | .repne | .rep | .hlt | .cmc | .clc | .stc | .cli |
    .sti | .cld | .std => true
  | .addEbGb e _ | .addGbEb e _ | .orEbGb e _ | .orGbEb e _ | .adcEbGb e _ | .adcGbEb e _ | .sbbEbGb e _ |
    .sbbGbEb e _ | .andEbGb e _ | .andGbEb e _ | .subEbGb e _ | .subGbEb e _ | .xorEbGb e _ | .xorGbEb e _ |
    .cmpEbGb e _ | .cmpGbEb e _ | .addEbIb e _ | .orEbIb e _ | .adcEbIb e _ | .sbbEbIb e _ | .andEbIb e _ |
    .subEbIb e _ | .xorEbIb e _ | .cmpEbIb e _ | .addEbIb82 e _ | .orEbIb82 e _ | .adcEbIb82 e _ |
    .sbbEbIb82 e _ | .andEbIb82 e _ | .subEbIb82 e _ | .xorEbIb82 e _ | .cmpEbIb82 e _ | .testEbGb e _ |
    .xchgEbGb e _ | .movEbGb e _ | .movGbEb e _ | .movEbIb e _ | .rolEb1 e | .rorEb1 e | .rclEb1 e | .rcrEb1 e |
    .shlEb1 e | .shrEb1 e | .sarEb1 e | .rolEbCl e | .rorEbCl e | .rclEbCl e | .rcrEbCl e | .shlEbCl e |
    .shrEbCl e | .sarEbCl e | .testEbIb e _ | .notEb e | .negEb e | .mulEb e | .imulEb e | .divEb e | .idivEb e |
    .incEb e | .decEb e => e.wf
  | .addEvGv e _ | .addGvEv e _ | .orEvGv e _ | .orGvEv e _ | .adcEvGv e _ | .adcGvEv e _ | .sbbEvGv e _ |
    .sbbGvEv e _ | .andEvGv e _ | .andGvEv e _ | .subEvGv e _ | .subGvEv e _ | .xorEvGv e _ | .xorGvEv e _ |
    .cmpEvGv e _ | .cmpGvEv e _ | .addEvIv e _ | .orEvIv e _ | .adcEvIv e _ | .sbbEvIv e _ | .andEvIv e _ |
    .subEvIv e _ | .xorEvIv e _ | .cmpEvIv e _ | .addEvIb e _ | .orEvIb e _ | .adcEvIb e _ | .sbbEvIb e _ |
    .andEvIb e _ | .subEvIb e _ | .xorEvIb e _ | .cmpEvIb e _ | .testEvGv e _ | .xchgEvGv e _ | .movEvGv e _ |
    .movGvEv e _ | .movEwSw e _ | .movSwEwEs e | .popEv e | .movEvIv e _ | .rolEv1 e | .rorEv1 e | .rclEv1 e |
    .rcrEv1 e | .shlEv1 e | .shrEv1 e | .sarEv1 e | .rolEvCl e | .rorEvCl e | .rclEvCl e | .rcrEvCl e |
    .shlEvCl e | .shrEvCl e | .sarEvCl e | .esc0Ev e _ | .esc1Ev e _ | .esc2Ev e _ | .esc3Ev e _ | .esc4Ev e _ |
    .esc5Ev e _ | .esc6Ev e _ | .esc7Ev e _ | .testEvIv e _ | .notEv e | .negEv e | .mulEv e | .imulEv e |
    .divEv e | .idivEv e | .incEv e | .decEv e | .callEv e | .jmpEv e | .pushEv e => e.wf
  | .leaGvM m _ | .lesGvMp m _ | .ldsGvMp m _ | .callMp m | .jmpMp m => m.wf
  | .movSwEwSsDs e sr => e.wf && (sr == .ss || sr == .ds)
  | .ud op m => undefinedEncoding op m

end Sys2Proof
end

