-- ==== Sys2Proof/Decode.lean ====
section
/-! DEFINITION. The decoder (spec/30_encoding.md: the ModRM byte R204 to R208, immediates R209 to R212, the opcode map
R215, the group tables R216, the undefined encodings R218), total on any bytes, and after it the encoder, written from
spec/opcode_table.json. -/

namespace Sys2Proof

/-- The bytes end before the instruction does. -/
inductive DecodeError where
  | truncated
  deriving DecidableEq, Repr

/-- The decoded instruction and the bytes after it. -/
abbrev Decoded := Except DecodeError (Instr × List Byte)

/-- R51: the register of an index. -/
def Reg16.ofIdx (i : BitVec 3) : Reg16 :=
  match i.toNat with
  | 0 => .ax | 1 => .cx | 2 => .dx | 3 => .bx | 4 => .sp | 5 => .bp | 6 => .si | _ => .di

/-- R51: the index of a register. -/
def Reg16.idx : Reg16 → BitVec 3
  | .ax => 0 | .cx => 1 | .dx => 2 | .bx => 3 | .sp => 4 | .bp => 5 | .si => 6 | .di => 7

/-- R52: the 8-bit register of an index. -/
def Reg8.ofIdx (i : BitVec 3) : Reg8 :=
  match i.toNat with
  | 0 => .al | 1 => .cl | 2 => .dl | 3 => .bl | 4 => .ah | 5 => .ch | 6 => .dh | _ => .bh

/-- R52: the index of an 8-bit register. -/
def Reg8.idx : Reg8 → BitVec 3
  | .al => 0 | .cl => 1 | .dl => 2 | .bl => 3 | .ah => 4 | .ch => 5 | .dh => 6 | .bh => 7

/-- R54: the segment register of the low two bits of an index (the `reg` field is 0 to 3, R302). -/
def SegReg.ofIdx (i : BitVec 3) : SegReg :=
  match i.toNat % 4 with
  | 0 => .es | 1 => .cs | 2 => .ss | _ => .ds

/-- R54: the index of a segment register. -/
def SegReg.idx : SegReg → BitVec 3
  | .es => 0 | .cs => 1 | .ss => 2 | .ds => 3

/-- R206: the base and index combination of an `rm` field. -/
def Base.ofIdx (i : BitVec 3) : Base :=
  match i.toNat with
  | 0 => .bxSi | 1 => .bxDi | 2 => .bpSi | 3 => .bpDi | 4 => .si | 5 => .di | 6 => .bp | _ => .bx

/-- R206: the `rm` field of a base and index combination. -/
def Base.idx : Base → BitVec 3
  | .bxSi => 0 | .bxDi => 1 | .bpSi => 2 | .bpDi => 3 | .si => 4 | .di => 5 | .bp => 6 | .bx => 7

/-- R204: the field `mod` of a ModRM byte. -/
def modField (m : Byte) : BitVec 2 := m.extractLsb' 6 2

/-- R204: the field `reg`. -/
def regField (m : Byte) : BitVec 3 := m.extractLsb' 3 3

/-- R204: the field `rm`. -/
def rmField (m : Byte) : BitVec 3 := m.extractLsb' 0 3

/-- R204: the ModRM byte of three fields. -/
def modRM (md : BitVec 2) (reg rm : BitVec 3) : Byte := md ++ reg ++ rm

/-- R205, R206: the second operand of a ModRM byte before its width is known: a register index or a memory operand. -/
inductive RM where
  | reg (i : BitVec 3)
  | mem (m : Mem)
  deriving DecidableEq, Repr

def RM.to8 : RM → RM8
  | .reg i => .reg (Reg8.ofIdx i)
  | .mem m => .mem m

def RM.to16 : RM → RM16
  | .reg i => .reg (Reg16.ofIdx i)
  | .mem m => .mem m

/-- R209: an 8-bit field. -/
def take8 (k : Byte → List Byte → Decoded) : List Byte → Decoded
  | v :: rest => k v rest
  | [] => .error .truncated

/-- R207, R209: a 16-bit field, low byte first. -/
def take16 (k : Word → List Byte → Decoded) : List Byte → Decoded
  | lo :: hi :: rest => k (mkWord hi lo) rest
  | _ => .error .truncated

/-- R205 to R207: the operand that `mod` and `rm` name, after its displacement bytes. -/
def takeRM (m : Byte) (k : RM → List Byte → Decoded) (bs : List Byte) : Decoded :=
  let b := Base.ofIdx (rmField m)
  match (modField m).toNat with
  | 0 => if b = .bp then take16 (fun d => k (.mem (.direct d))) bs else k (.mem (.base b)) bs
  | 1 => take8 (fun d => k (.mem (.disp8 b d))) bs
  | 2 => take16 (fun d => k (.mem (.disp16 b d))) bs
  | _ => k (.reg (rmField m)) bs

/-- What follows the operand of a ModRM byte (R209, R216). -/
inductive Tail where
  | done (i : Instr)
  | imm8 (k : Byte → Instr)
  | imm16 (k : Word → Instr)

def Tail.take : Tail → List Byte → Decoded
  | .done i, bs => .ok (i, bs)
  | .imm8 k, bs => take8 (fun v rest => .ok (k v, rest)) bs
  | .imm16 k, bs => take16 (fun v rest => .ok (k v, rest)) bs

/-- What follows an opcode (R217). -/
inductive Form where
  /-- Nothing. -/
  | plain (i : Instr)
  | imm8 (k : Byte → Instr)
  | imm16 (k : Word → Instr)
  /-- `Ap` (R211): the offset word, then the segment word. -/
  | ptr (k : Word → Word → Instr)
  /-- A ModRM byte; the instruction depends on its `reg` field and on the operand, `none` where the encoding is
  undefined. -/
  | modrm (k : BitVec 3 → RM → Option Tail)
  /-- An undefined opcode (R218). -/
  | undefined

/-- The shape of the operand a ModRM byte names (register or memory), known before its displacement is fetched. -/
def RM.shape (m : Byte) : RM :=
  if modField m = 3 then .reg (rmField m) else .mem (.direct 0)

/-- R204, R214, R217: the rest of an instruction whose opcode is `op`. A ModRM byte whose encoding is undefined ends the
instruction (R713: the bytes "fetched so far"). -/
def Form.take (op : Byte) : Form → List Byte → Decoded
  | .plain i, bs => .ok (i, bs)
  | .imm8 k, bs => take8 (fun v rest => .ok (k v, rest)) bs
  | .imm16 k, bs => take16 (fun v rest => .ok (k v, rest)) bs
  | .ptr k, bs => take16 (fun off => take16 fun seg rest => .ok (k off seg, rest)) bs
  | .modrm k, bs =>
    take8 (fun m rest =>
      if (k (regField m) (RM.shape m)).isNone then .ok (.ud op (some m), rest)
      else takeRM m (fun e rest' => match k (regField m) e with
        | some t => t.take rest'
        | none => .ok (.ud op (some m), rest)) rest) bs
  | .undefined, bs => .ok (.ud op none, bs)

/-- A ModRM form whose `reg` field is an 8-bit register (`Eb,Gb` and `Gb,Eb`). -/
def formRM8 (k : RM8 → Reg8 → Instr) : Form := .modrm fun g e => some (.done (k e.to8 (Reg8.ofIdx g)))

/-- A ModRM form whose `reg` field is a 16-bit register (`Ev,Gv` and `Gv,Ev`). -/
def formRM16 (k : RM16 → Reg16 → Instr) : Form := .modrm fun g e => some (.done (k e.to16 (Reg16.ofIdx g)))

/-- A ModRM form with a memory operand only (`Gv,M` and `Gv,Mp`). -/
def formMem (k : Mem → Reg16 → Instr) : Form :=
  .modrm fun g e => match e with
    | .mem m => some (.done (k m (Reg16.ofIdx g)))
    | .reg _ => none

/-- ESC (R709): the `reg` field is kept as it is. -/
def formEsc (k : RM16 → BitVec 3 → Instr) : Form := .modrm fun g e => some (.done (k e.to16 g))

/-- R216 grp1, opcode 80. -/
def grp1Eb (g : BitVec 3) (e : RM) : Option Tail :=
  match g.toNat with
  | 0 => some (.imm8 (.addEbIb e.to8))
  | 1 => some (.imm8 (.orEbIb e.to8))
  | 2 => some (.imm8 (.adcEbIb e.to8))
  | 3 => some (.imm8 (.sbbEbIb e.to8))
  | 4 => some (.imm8 (.andEbIb e.to8))
  | 5 => some (.imm8 (.subEbIb e.to8))
  | 6 => some (.imm8 (.xorEbIb e.to8))
  | 7 => some (.imm8 (.cmpEbIb e.to8))
  | _ => none

/-- R216 grp1, opcode 81. -/
def grp1Ev (g : BitVec 3) (e : RM) : Option Tail :=
  match g.toNat with
  | 0 => some (.imm16 (.addEvIv e.to16))
  | 1 => some (.imm16 (.orEvIv e.to16))
  | 2 => some (.imm16 (.adcEvIv e.to16))
  | 3 => some (.imm16 (.sbbEvIv e.to16))
  | 4 => some (.imm16 (.andEvIv e.to16))
  | 5 => some (.imm16 (.subEvIv e.to16))
  | 6 => some (.imm16 (.xorEvIv e.to16))
  | 7 => some (.imm16 (.cmpEvIv e.to16))
  | _ => none

/-- R216 grp1, opcode 82 (the same operations as 80, D57). -/
def grp1Eb82 (g : BitVec 3) (e : RM) : Option Tail :=
  match g.toNat with
  | 0 => some (.imm8 (.addEbIb82 e.to8))
  | 1 => some (.imm8 (.orEbIb82 e.to8))
  | 2 => some (.imm8 (.adcEbIb82 e.to8))
  | 3 => some (.imm8 (.sbbEbIb82 e.to8))
  | 4 => some (.imm8 (.andEbIb82 e.to8))
  | 5 => some (.imm8 (.subEbIb82 e.to8))
  | 6 => some (.imm8 (.xorEbIb82 e.to8))
  | 7 => some (.imm8 (.cmpEbIb82 e.to8))
  | _ => none

/-- R216 grp1, opcode 83: a one-byte immediate, sign-extended by the meaning (R209). -/
def grp1EvIb (g : BitVec 3) (e : RM) : Option Tail :=
  match g.toNat with
  | 0 => some (.imm8 (.addEvIb e.to16))
  | 1 => some (.imm8 (.orEvIb e.to16))
  | 2 => some (.imm8 (.adcEvIb e.to16))
  | 3 => some (.imm8 (.sbbEvIb e.to16))
  | 4 => some (.imm8 (.andEvIb e.to16))
  | 5 => some (.imm8 (.subEvIb e.to16))
  | 6 => some (.imm8 (.xorEvIb e.to16))
  | 7 => some (.imm8 (.cmpEvIb e.to16))
  | _ => none

/-- R216 grp2, opcode D0. -/
def grp2Eb1 (g : BitVec 3) (e : RM) : Option Tail :=
  match g.toNat with
  | 0 => some (.done (.rolEb1 e.to8))
  | 1 => some (.done (.rorEb1 e.to8))
  | 2 => some (.done (.rclEb1 e.to8))
  | 3 => some (.done (.rcrEb1 e.to8))
  | 4 => some (.done (.shlEb1 e.to8))
  | 5 => some (.done (.shrEb1 e.to8))
  | 7 => some (.done (.sarEb1 e.to8))
  | _ => none

/-- R216 grp2, opcode D1. -/
def grp2Ev1 (g : BitVec 3) (e : RM) : Option Tail :=
  match g.toNat with
  | 0 => some (.done (.rolEv1 e.to16))
  | 1 => some (.done (.rorEv1 e.to16))
  | 2 => some (.done (.rclEv1 e.to16))
  | 3 => some (.done (.rcrEv1 e.to16))
  | 4 => some (.done (.shlEv1 e.to16))
  | 5 => some (.done (.shrEv1 e.to16))
  | 7 => some (.done (.sarEv1 e.to16))
  | _ => none

/-- R216 grp2, opcode D2. -/
def grp2EbCl (g : BitVec 3) (e : RM) : Option Tail :=
  match g.toNat with
  | 0 => some (.done (.rolEbCl e.to8))
  | 1 => some (.done (.rorEbCl e.to8))
  | 2 => some (.done (.rclEbCl e.to8))
  | 3 => some (.done (.rcrEbCl e.to8))
  | 4 => some (.done (.shlEbCl e.to8))
  | 5 => some (.done (.shrEbCl e.to8))
  | 7 => some (.done (.sarEbCl e.to8))
  | _ => none

/-- R216 grp2, opcode D3. -/
def grp2EvCl (g : BitVec 3) (e : RM) : Option Tail :=
  match g.toNat with
  | 0 => some (.done (.rolEvCl e.to16))
  | 1 => some (.done (.rorEvCl e.to16))
  | 2 => some (.done (.rclEvCl e.to16))
  | 3 => some (.done (.rcrEvCl e.to16))
  | 4 => some (.done (.shlEvCl e.to16))
  | 5 => some (.done (.shrEvCl e.to16))
  | 7 => some (.done (.sarEvCl e.to16))
  | _ => none

/-- R216 grp3, opcode F6. -/
def grp3Eb (g : BitVec 3) (e : RM) : Option Tail :=
  match g.toNat with
  | 0 => some (.imm8 (.testEbIb e.to8))
  | 2 => some (.done (.notEb e.to8))
  | 3 => some (.done (.negEb e.to8))
  | 4 => some (.done (.mulEb e.to8))
  | 5 => some (.done (.imulEb e.to8))
  | 6 => some (.done (.divEb e.to8))
  | 7 => some (.done (.idivEb e.to8))
  | _ => none

/-- R216 grp3, opcode F7. -/
def grp3Ev (g : BitVec 3) (e : RM) : Option Tail :=
  match g.toNat with
  | 0 => some (.imm16 (.testEvIv e.to16))
  | 2 => some (.done (.notEv e.to16))
  | 3 => some (.done (.negEv e.to16))
  | 4 => some (.done (.mulEv e.to16))
  | 5 => some (.done (.imulEv e.to16))
  | 6 => some (.done (.divEv e.to16))
  | 7 => some (.done (.idivEv e.to16))
  | _ => none

/-- R216 grp4, opcode FE. -/
def grp4 (g : BitVec 3) (e : RM) : Option Tail :=
  match g.toNat with
  | 0 => some (.done (.incEb e.to8))
  | 1 => some (.done (.decEb e.to8))
  | 7 => match e with
    | .reg rm => some (.imm16 (.callbackIw rm))
    | .mem _ => none
  | _ => none

/-- R216 grp5, opcode FF. -/
def grp5 (g : BitVec 3) (e : RM) : Option Tail :=
  match g.toNat with
  | 0 => some (.done (.incEv e.to16))
  | 1 => some (.done (.decEv e.to16))
  | 2 => some (.done (.callEv e.to16))
  | 3 => match e with
    | .mem m => some (.done (.callMp m))
    | .reg _ => none
  | 4 => some (.done (.jmpEv e.to16))
  | 5 => match e with
    | .mem m => some (.done (.jmpMp m))
    | .reg _ => none
  | 6 => some (.done (.pushEv e.to16))
  | _ => none

/-- R303: MOV to a segment register; `reg` 0 is ES, 2 SS, 3 DS, the others are undefined. -/
def grp8E (g : BitVec 3) (e : RM) : Option Tail :=
  match g.toNat with
  | 0 => some (.done (.movSwEwEs e.to16))
  | 2 => some (.done (.movSwEwSsDs e.to16 .ss))
  | 3 => some (.done (.movSwEwSsDs e.to16 .ds))
  | _ => none

/-- R215: row 0x of the opcode map. -/
def opRow0 (lo : Nat) : Form :=
  match lo with
  | 0 => formRM8 .addEbGb
  | 1 => formRM16 .addEvGv
  | 2 => formRM8 .addGbEb
  | 3 => formRM16 .addGvEv
  | 4 => .imm8 .addAlIb
  | 5 => .imm16 .addAxIv
  | 6 => .plain .pushEs
  | 7 => .plain .popEs
  | 8 => formRM8 .orEbGb
  | 9 => formRM16 .orEvGv
  | 10 => formRM8 .orGbEb
  | 11 => formRM16 .orGvEv
  | 12 => .imm8 .orAlIb
  | 13 => .imm16 .orAxIv
  | 14 => .plain .pushCs
  | _ => .undefined

/-- R215: row 1x of the opcode map. -/
def opRow1 (lo : Nat) : Form :=
  match lo with
  | 0 => formRM8 .adcEbGb
  | 1 => formRM16 .adcEvGv
  | 2 => formRM8 .adcGbEb
  | 3 => formRM16 .adcGvEv
  | 4 => .imm8 .adcAlIb
  | 5 => .imm16 .adcAxIv
  | 6 => .plain .pushSs
  | 7 => .plain .popSs
  | 8 => formRM8 .sbbEbGb
  | 9 => formRM16 .sbbEvGv
  | 10 => formRM8 .sbbGbEb
  | 11 => formRM16 .sbbGvEv
  | 12 => .imm8 .sbbAlIb
  | 13 => .imm16 .sbbAxIv
  | 14 => .plain .pushDs
  | _ => .plain .popDs

/-- R215: row 2x of the opcode map. -/
def opRow2 (lo : Nat) : Form :=
  match lo with
  | 0 => formRM8 .andEbGb
  | 1 => formRM16 .andEvGv
  | 2 => formRM8 .andGbEb
  | 3 => formRM16 .andGvEv
  | 4 => .imm8 .andAlIb
  | 5 => .imm16 .andAxIv
  | 6 => .plain .segEs
  | 7 => .plain .daa
  | 8 => formRM8 .subEbGb
  | 9 => formRM16 .subEvGv
  | 10 => formRM8 .subGbEb
  | 11 => formRM16 .subGvEv
  | 12 => .imm8 .subAlIb
  | 13 => .imm16 .subAxIv
  | 14 => .plain .segCs
  | _ => .plain .das

/-- R215: row 3x of the opcode map. -/
def opRow3 (lo : Nat) : Form :=
  match lo with
  | 0 => formRM8 .xorEbGb
  | 1 => formRM16 .xorEvGv
  | 2 => formRM8 .xorGbEb
  | 3 => formRM16 .xorGvEv
  | 4 => .imm8 .xorAlIb
  | 5 => .imm16 .xorAxIv
  | 6 => .plain .segSs
  | 7 => .plain .aaa
  | 8 => formRM8 .cmpEbGb
  | 9 => formRM16 .cmpEvGv
  | 10 => formRM8 .cmpGbEb
  | 11 => formRM16 .cmpGvEv
  | 12 => .imm8 .cmpAlIb
  | 13 => .imm16 .cmpAxIv
  | 14 => .plain .segDs
  | _ => .plain .aas

/-- R215: row 4x of the opcode map. -/
def opRow4 (lo : Nat) : Form :=
  match lo with
  | 0 => .plain .incAx
  | 1 => .plain .incCx
  | 2 => .plain .incDx
  | 3 => .plain .incBx
  | 4 => .plain .incSp
  | 5 => .plain .incBp
  | 6 => .plain .incSi
  | 7 => .plain .incDi
  | 8 => .plain .decAx
  | 9 => .plain .decCx
  | 10 => .plain .decDx
  | 11 => .plain .decBx
  | 12 => .plain .decSp
  | 13 => .plain .decBp
  | 14 => .plain .decSi
  | _ => .plain .decDi

/-- R215: row 5x of the opcode map. -/
def opRow5 (lo : Nat) : Form :=
  match lo with
  | 0 => .plain .pushAx
  | 1 => .plain .pushCx
  | 2 => .plain .pushDx
  | 3 => .plain .pushBx
  | 4 => .plain .pushSp
  | 5 => .plain .pushBp
  | 6 => .plain .pushSi
  | 7 => .plain .pushDi
  | 8 => .plain .popAx
  | 9 => .plain .popCx
  | 10 => .plain .popDx
  | 11 => .plain .popBx
  | 12 => .plain .popSp
  | 13 => .plain .popBp
  | 14 => .plain .popSi
  | _ => .plain .popDi

/-- R215: row 6x of the opcode map. -/
def opRow6 (_ : Nat) : Form :=
  .undefined

/-- R215: row 7x of the opcode map. -/
def opRow7 (lo : Nat) : Form :=
  match lo with
  | 0 => .imm8 .joJb
  | 1 => .imm8 .jnoJb
  | 2 => .imm8 .jbJb
  | 3 => .imm8 .jnbJb
  | 4 => .imm8 .jzJb
  | 5 => .imm8 .jnzJb
  | 6 => .imm8 .jbeJb
  | 7 => .imm8 .jaJb
  | 8 => .imm8 .jsJb
  | 9 => .imm8 .jnsJb
  | 10 => .imm8 .jpJb
  | 11 => .imm8 .jnpJb
  | 12 => .imm8 .jlJb
  | 13 => .imm8 .jgeJb
  | 14 => .imm8 .jleJb
  | _ => .imm8 .jgJb

/-- R215: row 8x of the opcode map. -/
def opRow8 (lo : Nat) : Form :=
  match lo with
  | 0 => .modrm grp1Eb
  | 1 => .modrm grp1Ev
  | 2 => .modrm grp1Eb82
  | 3 => .modrm grp1EvIb
  | 4 => formRM8 .testEbGb
  | 5 => formRM16 .testEvGv
  | 6 => formRM8 .xchgEbGb
  | 7 => formRM16 .xchgEvGv
  | 8 => formRM8 .movEbGb
  | 9 => formRM16 .movEvGv
  | 10 => formRM8 .movGbEb
  | 11 => formRM16 .movGvEv
  | 12 => .modrm fun g e => if g.toNat < 4 then some (.done (.movEwSw e.to16 (SegReg.ofIdx g))) else none
  | 13 => formMem .leaGvM
  | 14 => .modrm grp8E
  | _ => .modrm fun g e => if g = 0 then some (.done (.popEv e.to16)) else none

/-- R215: row 9x of the opcode map. -/
def opRow9 (lo : Nat) : Form :=
  match lo with
  | 0 => .plain .nop
  | 1 => .plain .xchgCxAx
  | 2 => .plain .xchgDxAx
  | 3 => .plain .xchgBxAx
  | 4 => .plain .xchgSpAx
  | 5 => .plain .xchgBpAx
  | 6 => .plain .xchgSiAx
  | 7 => .plain .xchgDiAx
  | 8 => .plain .cbw
  | 9 => .plain .cwd
  | 10 => .ptr .callAp
  | 11 => .plain .wait
  | 12 => .plain .pushf
  | 13 => .plain .popf
  | 14 => .plain .sahf
  | _ => .plain .lahf

/-- R215: row Ax of the opcode map. -/
def opRowA (lo : Nat) : Form :=
  match lo with
  | 0 => .imm16 .movAlOb
  | 1 => .imm16 .movAxOv
  | 2 => .imm16 .movObAl
  | 3 => .imm16 .movOvAx
  | 4 => .plain .movsb
  | 5 => .plain .movsw
  | 6 => .plain .cmpsb
  | 7 => .plain .cmpsw
  | 8 => .imm8 .testAlIb
  | 9 => .imm16 .testAxIv
  | 10 => .plain .stosb
  | 11 => .plain .stosw
  | 12 => .plain .lodsb
  | 13 => .plain .lodsw
  | 14 => .plain .scasb
  | _ => .plain .scasw

/-- R215: row Bx of the opcode map. -/
def opRowB (lo : Nat) : Form :=
  match lo with
  | 0 => .imm8 .movAlIb
  | 1 => .imm8 .movClIb
  | 2 => .imm8 .movDlIb
  | 3 => .imm8 .movBlIb
  | 4 => .imm8 .movAhIb
  | 5 => .imm8 .movChIb
  | 6 => .imm8 .movDhIb
  | 7 => .imm8 .movBhIb
  | 8 => .imm16 .movAxIv
  | 9 => .imm16 .movCxIv
  | 10 => .imm16 .movDxIv
  | 11 => .imm16 .movBxIv
  | 12 => .imm16 .movSpIv
  | 13 => .imm16 .movBpIv
  | 14 => .imm16 .movSiIv
  | _ => .imm16 .movDiIv

/-- R215: row Cx of the opcode map. -/
def opRowC (lo : Nat) : Form :=
  match lo with
  | 0 => .undefined
  | 1 => .undefined
  | 2 => .imm16 .retIw
  | 3 => .plain .ret
  | 4 => formMem .lesGvMp
  | 5 => formMem .ldsGvMp
  | 6 => .modrm fun g e => if g = 0 then some (.imm8 (.movEbIb e.to8)) else none
  | 7 => .modrm fun g e => if g = 0 then some (.imm16 (.movEvIv e.to16)) else none
  | 8 => .undefined
  | 9 => .undefined
  | 10 => .imm16 .retfIw
  | 11 => .plain .retf
  | 12 => .plain .int3
  | 13 => .imm8 .intIb
  | 14 => .plain .into
  | _ => .plain .iret

/-- R215: row Dx of the opcode map. -/
def opRowD (lo : Nat) : Form :=
  match lo with
  | 0 => .modrm grp2Eb1
  | 1 => .modrm grp2Ev1
  | 2 => .modrm grp2EbCl
  | 3 => .modrm grp2EvCl
  | 4 => .imm8 .aamIb
  | 5 => .imm8 .aadIb
  | 6 => .undefined
  | 7 => .plain .xlat
  | 8 => formEsc .esc0Ev
  | 9 => formEsc .esc1Ev
  | 10 => formEsc .esc2Ev
  | 11 => formEsc .esc3Ev
  | 12 => formEsc .esc4Ev
  | 13 => formEsc .esc5Ev
  | 14 => formEsc .esc6Ev
  | _ => formEsc .esc7Ev

/-- R215: row Ex of the opcode map. -/
def opRowE (lo : Nat) : Form :=
  match lo with
  | 0 => .imm8 .loopnzJb
  | 1 => .imm8 .loopzJb
  | 2 => .imm8 .loopJb
  | 3 => .imm8 .jcxzJb
  | 4 => .imm8 .inAlIb
  | 5 => .imm8 .inAxIb
  | 6 => .imm8 .outIbAl
  | 7 => .imm8 .outIbAx
  | 8 => .imm16 .callJv
  | 9 => .imm16 .jmpJv
  | 10 => .ptr .jmpAp
  | 11 => .imm8 .jmpJb
  | 12 => .plain .inAlDx
  | 13 => .plain .inAxDx
  | 14 => .plain .outDxAl
  | _ => .plain .outDxAx

/-- R215: row Fx of the opcode map. -/
def opRowF (lo : Nat) : Form :=
  match lo with
  | 0 => .plain .lock
  | 1 => .undefined
  | 2 => .plain .repne
  | 3 => .plain .rep
  | 4 => .plain .hlt
  | 5 => .plain .cmc
  | 6 => .modrm grp3Eb
  | 7 => .modrm grp3Ev
  | 8 => .plain .clc
  | 9 => .plain .stc
  | 10 => .plain .cli
  | 11 => .plain .sti
  | 12 => .plain .cld
  | 13 => .plain .std
  | 14 => .modrm grp4
  | _ => .modrm grp5

/-- R214, R215: dispatch on the opcode byte. -/
def opForm (op : Byte) : Form :=
  let lo := op.toNat % 16
  match op.toNat / 16 with
  | 0 => opRow0 lo
  | 1 => opRow1 lo
  | 2 => opRow2 lo
  | 3 => opRow3 lo
  | 4 => opRow4 lo
  | 5 => opRow5 lo
  | 6 => opRow6 lo
  | 7 => opRow7 lo
  | 8 => opRow8 lo
  | 9 => opRow9 lo
  | 10 => opRowA lo
  | 11 => opRowB lo
  | 12 => opRowC lo
  | 13 => opRowD lo
  | 14 => opRowE lo
  | _ => opRowF lo

/-- R201, R214: decode one prefix, or one instruction after its prefixes, from the front of `bs`. An undefined encoding
decodes to `ud`; only bytes that end too early give no instruction. -/
def decode : List Byte → Decoded
  | [] => .error .truncated
  | op :: rest => (opForm op).take op rest

/-- R201: the prefixes. -/
def Instr.isPrefix : Instr → Bool
  | .segEs | .segCs | .segSs | .segDs | .lock | .repne | .rep => true
  | _ => false

/-- The length of the longest instruction without its prefixes: opcode, ModRM, two displacement and two immediate
bytes (R217). -/
def maxLength : Nat := 6

/-- R206, R207: a ModRM byte with field `reg` for a memory operand, and its displacement. -/
def Mem.enc (g : BitVec 3) : Mem → List Byte
  | .direct d => modRM 0 g 6 :: le16 d
  | .base b => [modRM 0 g b.idx]
  | .disp8 b d => [modRM 1 g b.idx, d]
  | .disp16 b d => modRM 2 g b.idx :: le16 d

/-- R205, R206: a ModRM byte with field `reg` for an 8-bit operand. -/
def RM8.enc (g : BitVec 3) : RM8 → List Byte
  | .reg r => [modRM 3 g r.idx]
  | .mem m => m.enc g

/-- R205, R206: a ModRM byte with field `reg` for a 16-bit operand. -/
def RM16.enc (g : BitVec 3) : RM16 → List Byte
  | .reg r => [modRM 3 g r.idx]
  | .mem m => m.enc g

/-- The bytes of an instruction, opcode and `reg` field from spec/opcode_table.json's `match` (R223). -/
def encode : Instr → List Byte
  | .addEbGb e g => 0x00 :: e.enc g.idx
  | .addEvGv e g => 0x01 :: e.enc g.idx
  | .addGbEb e g => 0x02 :: e.enc g.idx
  | .addGvEv e g => 0x03 :: e.enc g.idx
  | .addAlIb v => [0x04, v]
  | .addAxIv v => 0x05 :: le16 v
  | .orEbGb e g => 0x08 :: e.enc g.idx
  | .orEvGv e g => 0x09 :: e.enc g.idx
  | .orGbEb e g => 0x0A :: e.enc g.idx
  | .orGvEv e g => 0x0B :: e.enc g.idx
  | .orAlIb v => [0x0C, v]
  | .orAxIv v => 0x0D :: le16 v
  | .adcEbGb e g => 0x10 :: e.enc g.idx
  | .adcEvGv e g => 0x11 :: e.enc g.idx
  | .adcGbEb e g => 0x12 :: e.enc g.idx
  | .adcGvEv e g => 0x13 :: e.enc g.idx
  | .adcAlIb v => [0x14, v]
  | .adcAxIv v => 0x15 :: le16 v
  | .sbbEbGb e g => 0x18 :: e.enc g.idx
  | .sbbEvGv e g => 0x19 :: e.enc g.idx
  | .sbbGbEb e g => 0x1A :: e.enc g.idx
  | .sbbGvEv e g => 0x1B :: e.enc g.idx
  | .sbbAlIb v => [0x1C, v]
  | .sbbAxIv v => 0x1D :: le16 v
  | .andEbGb e g => 0x20 :: e.enc g.idx
  | .andEvGv e g => 0x21 :: e.enc g.idx
  | .andGbEb e g => 0x22 :: e.enc g.idx
  | .andGvEv e g => 0x23 :: e.enc g.idx
  | .andAlIb v => [0x24, v]
  | .andAxIv v => 0x25 :: le16 v
  | .subEbGb e g => 0x28 :: e.enc g.idx
  | .subEvGv e g => 0x29 :: e.enc g.idx
  | .subGbEb e g => 0x2A :: e.enc g.idx
  | .subGvEv e g => 0x2B :: e.enc g.idx
  | .subAlIb v => [0x2C, v]
  | .subAxIv v => 0x2D :: le16 v
  | .xorEbGb e g => 0x30 :: e.enc g.idx
  | .xorEvGv e g => 0x31 :: e.enc g.idx
  | .xorGbEb e g => 0x32 :: e.enc g.idx
  | .xorGvEv e g => 0x33 :: e.enc g.idx
  | .xorAlIb v => [0x34, v]
  | .xorAxIv v => 0x35 :: le16 v
  | .cmpEbGb e g => 0x38 :: e.enc g.idx
  | .cmpEvGv e g => 0x39 :: e.enc g.idx
  | .cmpGbEb e g => 0x3A :: e.enc g.idx
  | .cmpGvEv e g => 0x3B :: e.enc g.idx
  | .cmpAlIb v => [0x3C, v]
  | .cmpAxIv v => 0x3D :: le16 v
  | .joJb v => [0x70, v]
  | .jnoJb v => [0x71, v]
  | .jbJb v => [0x72, v]
  | .jnbJb v => [0x73, v]
  | .jzJb v => [0x74, v]
  | .jnzJb v => [0x75, v]
  | .jbeJb v => [0x76, v]
  | .jaJb v => [0x77, v]
  | .jsJb v => [0x78, v]
  | .jnsJb v => [0x79, v]
  | .jpJb v => [0x7A, v]
  | .jnpJb v => [0x7B, v]
  | .jlJb v => [0x7C, v]
  | .jgeJb v => [0x7D, v]
  | .jleJb v => [0x7E, v]
  | .jgJb v => [0x7F, v]
  | .addEbIb e v => 0x80 :: (e.enc 0 ++ [v])
  | .orEbIb e v => 0x80 :: (e.enc 1 ++ [v])
  | .adcEbIb e v => 0x80 :: (e.enc 2 ++ [v])
  | .sbbEbIb e v => 0x80 :: (e.enc 3 ++ [v])
  | .andEbIb e v => 0x80 :: (e.enc 4 ++ [v])
  | .subEbIb e v => 0x80 :: (e.enc 5 ++ [v])
  | .xorEbIb e v => 0x80 :: (e.enc 6 ++ [v])
  | .cmpEbIb e v => 0x80 :: (e.enc 7 ++ [v])
  | .addEvIv e v => 0x81 :: (e.enc 0 ++ le16 v)
  | .orEvIv e v => 0x81 :: (e.enc 1 ++ le16 v)
  | .adcEvIv e v => 0x81 :: (e.enc 2 ++ le16 v)
  | .sbbEvIv e v => 0x81 :: (e.enc 3 ++ le16 v)
  | .andEvIv e v => 0x81 :: (e.enc 4 ++ le16 v)
  | .subEvIv e v => 0x81 :: (e.enc 5 ++ le16 v)
  | .xorEvIv e v => 0x81 :: (e.enc 6 ++ le16 v)
  | .cmpEvIv e v => 0x81 :: (e.enc 7 ++ le16 v)
  | .addEbIb82 e v => 0x82 :: (e.enc 0 ++ [v])
  | .orEbIb82 e v => 0x82 :: (e.enc 1 ++ [v])
  | .adcEbIb82 e v => 0x82 :: (e.enc 2 ++ [v])
  | .sbbEbIb82 e v => 0x82 :: (e.enc 3 ++ [v])
  | .andEbIb82 e v => 0x82 :: (e.enc 4 ++ [v])
  | .subEbIb82 e v => 0x82 :: (e.enc 5 ++ [v])
  | .xorEbIb82 e v => 0x82 :: (e.enc 6 ++ [v])
  | .cmpEbIb82 e v => 0x82 :: (e.enc 7 ++ [v])
  | .addEvIb e v => 0x83 :: (e.enc 0 ++ [v])
  | .orEvIb e v => 0x83 :: (e.enc 1 ++ [v])
  | .adcEvIb e v => 0x83 :: (e.enc 2 ++ [v])
  | .sbbEvIb e v => 0x83 :: (e.enc 3 ++ [v])
  | .andEvIb e v => 0x83 :: (e.enc 4 ++ [v])
  | .subEvIb e v => 0x83 :: (e.enc 5 ++ [v])
  | .xorEvIb e v => 0x83 :: (e.enc 6 ++ [v])
  | .cmpEvIb e v => 0x83 :: (e.enc 7 ++ [v])
  | .testEbGb e g => 0x84 :: e.enc g.idx
  | .testEvGv e g => 0x85 :: e.enc g.idx
  | .xchgEbGb e g => 0x86 :: e.enc g.idx
  | .xchgEvGv e g => 0x87 :: e.enc g.idx
  | .movEbGb e g => 0x88 :: e.enc g.idx
  | .movEvGv e g => 0x89 :: e.enc g.idx
  | .movGbEb e g => 0x8A :: e.enc g.idx
  | .movGvEv e g => 0x8B :: e.enc g.idx
  | .movEwSw e sr => 0x8C :: e.enc sr.idx
  | .leaGvM m g => 0x8D :: m.enc g.idx
  | .movSwEwEs e => 0x8E :: e.enc 0
  | .movSwEwSsDs e sr => 0x8E :: e.enc sr.idx
  | .popEv e => 0x8F :: e.enc 0
  | .callAp off seg => 0x9A :: (le16 off ++ le16 seg)
  | .movAlOb v => 0xA0 :: le16 v
  | .movAxOv v => 0xA1 :: le16 v
  | .movObAl v => 0xA2 :: le16 v
  | .movOvAx v => 0xA3 :: le16 v
  | .testAlIb v => [0xA8, v]
  | .testAxIv v => 0xA9 :: le16 v
  | .movAlIb v => [0xB0, v]
  | .movAxIv v => 0xB8 :: le16 v
  | .movClIb v => [0xB1, v]
  | .movCxIv v => 0xB9 :: le16 v
  | .movDlIb v => [0xB2, v]
  | .movDxIv v => 0xBA :: le16 v
  | .movBlIb v => [0xB3, v]
  | .movBxIv v => 0xBB :: le16 v
  | .movAhIb v => [0xB4, v]
  | .movSpIv v => 0xBC :: le16 v
  | .movChIb v => [0xB5, v]
  | .movBpIv v => 0xBD :: le16 v
  | .movDhIb v => [0xB6, v]
  | .movSiIv v => 0xBE :: le16 v
  | .movBhIb v => [0xB7, v]
  | .movDiIv v => 0xBF :: le16 v
  | .retIw v => 0xC2 :: le16 v
  | .lesGvMp m g => 0xC4 :: m.enc g.idx
  | .ldsGvMp m g => 0xC5 :: m.enc g.idx
  | .movEbIb e v => 0xC6 :: (e.enc 0 ++ [v])
  | .movEvIv e v => 0xC7 :: (e.enc 0 ++ le16 v)
  | .retfIw v => 0xCA :: le16 v
  | .intIb v => [0xCD, v]
  | .rolEb1 e => 0xD0 :: e.enc 0
  | .rorEb1 e => 0xD0 :: e.enc 1
  | .rclEb1 e => 0xD0 :: e.enc 2
  | .rcrEb1 e => 0xD0 :: e.enc 3
  | .shlEb1 e => 0xD0 :: e.enc 4
  | .shrEb1 e => 0xD0 :: e.enc 5
  | .sarEb1 e => 0xD0 :: e.enc 7
  | .rolEv1 e => 0xD1 :: e.enc 0
  | .rorEv1 e => 0xD1 :: e.enc 1
  | .rclEv1 e => 0xD1 :: e.enc 2
  | .rcrEv1 e => 0xD1 :: e.enc 3
  | .shlEv1 e => 0xD1 :: e.enc 4
  | .shrEv1 e => 0xD1 :: e.enc 5
  | .sarEv1 e => 0xD1 :: e.enc 7
  | .rolEbCl e => 0xD2 :: e.enc 0
  | .rorEbCl e => 0xD2 :: e.enc 1
  | .rclEbCl e => 0xD2 :: e.enc 2
  | .rcrEbCl e => 0xD2 :: e.enc 3
  | .shlEbCl e => 0xD2 :: e.enc 4
  | .shrEbCl e => 0xD2 :: e.enc 5
  | .sarEbCl e => 0xD2 :: e.enc 7
  | .rolEvCl e => 0xD3 :: e.enc 0
  | .rorEvCl e => 0xD3 :: e.enc 1
  | .rclEvCl e => 0xD3 :: e.enc 2
  | .rcrEvCl e => 0xD3 :: e.enc 3
  | .shlEvCl e => 0xD3 :: e.enc 4
  | .shrEvCl e => 0xD3 :: e.enc 5
  | .sarEvCl e => 0xD3 :: e.enc 7
  | .aamIb v => [0xD4, v]
  | .aadIb v => [0xD5, v]
  | .esc0Ev e x => 0xD8 :: e.enc x
  | .esc1Ev e x => 0xD9 :: e.enc x
  | .esc2Ev e x => 0xDA :: e.enc x
  | .esc3Ev e x => 0xDB :: e.enc x
  | .esc4Ev e x => 0xDC :: e.enc x
  | .esc5Ev e x => 0xDD :: e.enc x
  | .esc6Ev e x => 0xDE :: e.enc x
  | .esc7Ev e x => 0xDF :: e.enc x
  | .loopnzJb v => [0xE0, v]
  | .loopzJb v => [0xE1, v]
  | .loopJb v => [0xE2, v]
  | .jcxzJb v => [0xE3, v]
  | .inAlIb v => [0xE4, v]
  | .inAxIb v => [0xE5, v]
  | .outIbAl v => [0xE6, v]
  | .outIbAx v => [0xE7, v]
  | .callJv v => 0xE8 :: le16 v
  | .jmpJv v => 0xE9 :: le16 v
  | .jmpAp off seg => 0xEA :: (le16 off ++ le16 seg)
  | .jmpJb v => [0xEB, v]
  | .testEbIb e v => 0xF6 :: (e.enc 0 ++ [v])
  | .notEb e => 0xF6 :: e.enc 2
  | .negEb e => 0xF6 :: e.enc 3
  | .mulEb e => 0xF6 :: e.enc 4
  | .imulEb e => 0xF6 :: e.enc 5
  | .divEb e => 0xF6 :: e.enc 6
  | .idivEb e => 0xF6 :: e.enc 7
  | .testEvIv e v => 0xF7 :: (e.enc 0 ++ le16 v)
  | .notEv e => 0xF7 :: e.enc 2
  | .negEv e => 0xF7 :: e.enc 3
  | .mulEv e => 0xF7 :: e.enc 4
  | .imulEv e => 0xF7 :: e.enc 5
  | .divEv e => 0xF7 :: e.enc 6
  | .idivEv e => 0xF7 :: e.enc 7
  | .incEb e => 0xFE :: e.enc 0
  | .decEb e => 0xFE :: e.enc 1
  | .callbackIw rm id => 0xFE :: modRM 3 7 rm :: le16 id
  | .incEv e => 0xFF :: e.enc 0
  | .decEv e => 0xFF :: e.enc 1
  | .callEv e => 0xFF :: e.enc 2
  | .callMp m => 0xFF :: m.enc 3
  | .jmpEv e => 0xFF :: e.enc 4
  | .jmpMp m => 0xFF :: m.enc 5
  | .pushEv e => 0xFF :: e.enc 6
  | .ud op m => op :: m.toList
  | .pushEs => [0x06]
  | .popEs => [0x07]
  | .pushCs => [0x0E]
  | .pushSs => [0x16]
  | .popSs => [0x17]
  | .pushDs => [0x1E]
  | .popDs => [0x1F]
  | .daa => [0x27]
  | .das => [0x2F]
  | .aaa => [0x37]
  | .aas => [0x3F]
  | .segEs => [0x26]
  | .segCs => [0x2E]
  | .segSs => [0x36]
  | .segDs => [0x3E]
  | .incAx => [0x40]
  | .decAx => [0x48]
  | .pushAx => [0x50]
  | .popAx => [0x58]
  | .incCx => [0x41]
  | .decCx => [0x49]
  | .pushCx => [0x51]
  | .popCx => [0x59]
  | .incDx => [0x42]
  | .decDx => [0x4A]
  | .pushDx => [0x52]
  | .popDx => [0x5A]
  | .incBx => [0x43]
  | .decBx => [0x4B]
  | .pushBx => [0x53]
  | .popBx => [0x5B]
  | .incSp => [0x44]
  | .decSp => [0x4C]
  | .pushSp => [0x54]
  | .popSp => [0x5C]
  | .incBp => [0x45]
  | .decBp => [0x4D]
  | .pushBp => [0x55]
  | .popBp => [0x5D]
  | .incSi => [0x46]
  | .decSi => [0x4E]
  | .pushSi => [0x56]
  | .popSi => [0x5E]
  | .incDi => [0x47]
  | .decDi => [0x4F]
  | .pushDi => [0x57]
  | .popDi => [0x5F]
  | .nop => [0x90]
  | .xchgCxAx => [0x91]
  | .xchgDxAx => [0x92]
  | .xchgBxAx => [0x93]
  | .xchgSpAx => [0x94]
  | .xchgBpAx => [0x95]
  | .xchgSiAx => [0x96]
  | .xchgDiAx => [0x97]
  | .cbw => [0x98]
  | .cwd => [0x99]
  | .wait => [0x9B]
  | .pushf => [0x9C]
  | .popf => [0x9D]
  | .sahf => [0x9E]
  | .lahf => [0x9F]
  | .movsb => [0xA4]
  | .movsw => [0xA5]
  | .cmpsb => [0xA6]
  | .cmpsw => [0xA7]
  | .stosb => [0xAA]
  | .stosw => [0xAB]
  | .lodsb => [0xAC]
  | .lodsw => [0xAD]
  | .scasb => [0xAE]
  | .scasw => [0xAF]
  | .ret => [0xC3]
  | .retf => [0xCB]
  | .int3 => [0xCC]
  | .into => [0xCE]
  | .iret => [0xCF]
  | .xlat => [0xD7]
  | .inAlDx => [0xEC]
  | .inAxDx => [0xED]
  | .outDxAl => [0xEE]
  | .outDxAx => [0xEF]
  | .lock => [0xF0]
  | .repne => [0xF2]
  | .rep => [0xF3]
  | .hlt => [0xF4]
  | .cmc => [0xF5]
  | .clc => [0xF8]
  | .stc => [0xF9]
  | .cli => [0xFA]
  | .sti => [0xFB]
  | .cld => [0xFC]
  | .std => [0xFD]

/-- The bytes of a table word (R223: the table numbers an instruction's first two bytes as `opcode * 256 + modrm`, so the
opcode is bits 15:8 and the next byte bits 7:0), later bytes from bit 16 on, zeros after `nbits`. -/
def tableBytes (nbits w : Nat) : List Byte :=
  let v := w % 2 ^ nbits
  if nbits ≤ 8 then [BitVec.ofNat 8 v, 0, 0, 0, 0, 0]
  else [BitVec.ofNat 8 (v / 256), BitVec.ofNat 8 v, BitVec.ofNat 8 (v / 65536), BitVec.ofNat 8 (v / 16777216),
    BitVec.ofNat 8 (v / 4294967296), BitVec.ofNat 8 (v / 1099511627776)]

/-- The instruction the decoder reads from a table word. -/
def decodeTableWord (nbits w : Nat) : Option Instr :=
  match decode (tableBytes nbits w) with
  | .ok (i, _) => some i
  | .error _ => none

end Sys2Proof
end

