-- ==== Sys2Proof/Machine/Flags.lean ====
section
/-! DEFINITION. The FLAGS word (spec/10_state.md rules R56, R57) and every flag computation: the add family (R401), the
subtract family (R402), the logical operations (R500) and the shifts and rotates (R506 to R513). -/

namespace Sys2Proof.Machine

/-- R56: the nine named flags; `ie` is IF and `ovf` is OF. -/
inductive Flag where
  | cf | pf | af | zf | sf | tf | ie | df | ovf
  deriving DecidableEq, Repr

/-- R56: the bit position of a flag. -/
def Flag.bit : Flag → Nat
  | .cf => 0 | .pf => 2 | .af => 4 | .zf => 6 | .sf => 7 | .tf => 8 | .ie => 9 | .df => 10 | .ovf => 11

/-- The flag `f` of a FLAGS word. -/
def getFlag (w : Word) (f : Flag) : Bool := w.getLsbD f.bit

/-- A FLAGS word with the flag `f` replaced and every other bit kept. -/
def setFlag (w : Word) (f : Flag) (b : Bool) : Word :=
  if b then w ||| (1#16 <<< f.bit) else w &&& ~~~(1#16 <<< f.bit)

/-- `SZP_w` (R18). -/
def szp {w : Nat} (r : BitVec w) (fl : Word) : Word :=
  setFlag (setFlag (setFlag fl .zf (r == 0)) .sf r.msb) .pf (parity8 (r.setWidth 8))

/-- `AddFlags` (R401): the result of `d + s + c` and the FLAGS word it leaves. CF is the exact carry (90 C4). -/
def addFlags {w : Nat} (d s : BitVec w) (c : Bool) (fl : Word) : BitVec w × Word :=
  let r := d + s + bit w c
  let fl := setFlag fl .cf (2 ^ w ≤ d.toNat + s.toNat + c.toNat)
  let fl := setFlag fl .ovf ((r ^^^ s) &&& (r ^^^ d)).msb
  let fl := setFlag fl .af ((r ^^^ s ^^^ d).getLsbD 4)
  (r, szp r fl)

/-- `SubFlags` (R402): the result of `d - s - b` and the FLAGS word it leaves. CF is the exact borrow (90 C4). -/
def subFlags {w : Nat} (d s : BitVec w) (b : Bool) (fl : Word) : BitVec w × Word :=
  let r := d - s - bit w b
  let fl := setFlag fl .cf (d.toNat < s.toNat + b.toNat)
  let fl := setFlag fl .ovf ((s ^^^ d) &&& (r ^^^ d)).msb
  let fl := setFlag fl .af ((r ^^^ s ^^^ d).getLsbD 4)
  (r, szp r fl)

/-- `LogicFlags` (R500): CF, OF and AF cleared (90 C8). -/
def logicFlags {w : Nat} (r : BitVec w) (fl : Word) : Word :=
  szp r (setFlag (setFlag (setFlag fl .cf false) .ovf false) .af false)

/-- R400: the eight binary ALU operations. -/
inductive AluOp where
  | add | or | adc | sbb | and | sub | xor | cmp
  deriving DecidableEq, Repr

/-- R403 to R407, R501 to R503: the result of an ALU operation on destination `d` and source `s`, and the FLAGS word it
leaves. -/
def AluOp.compute {w : Nat} (op : AluOp) (d s : BitVec w) (fl : Word) : BitVec w × Word :=
  match op with
  | .add => addFlags d s false fl
  | .or => (d ||| s, logicFlags (d ||| s) fl)
  | .adc => addFlags d s (getFlag fl .cf) fl
  | .sbb => subFlags d s (getFlag fl .cf) fl
  | .and => (d &&& s, logicFlags (d &&& s) fl)
  | .sub => subFlags d s false fl
  | .xor => (d ^^^ s, logicFlags (d ^^^ s) fl)
  | .cmp => subFlags d s false fl

/-- R400: CMP alone does not write its destination. -/
def AluOp.writes : AluOp → Bool
  | .cmp => false
  | .add | .or | .adc | .sbb | .and | .sub | .xor => true

/-- R408: INC leaves CF. -/
def incFlags {w : Nat} (d : BitVec w) (fl : Word) : BitVec w × Word :=
  let r := addFlags d 1 false fl
  (r.1, setFlag r.2 .cf (getFlag fl .cf))

/-- R409: DEC leaves CF. -/
def decFlags {w : Nat} (d : BitVec w) (fl : Word) : BitVec w × Word :=
  let r := subFlags d 1 false fl
  (r.1, setFlag r.2 .cf (getFlag fl .cf))

/-- R216 grp2: the seven shifts and rotates. -/
inductive ShiftOp where
  | rol | ror | rcl | rcr | shl | shr | sar
  deriving DecidableEq, Repr

/-- R507 to R513: one step of a shift or rotate on the value and CF. -/
def ShiftOp.step {w : Nat} (op : ShiftOp) (x : BitVec w × Bool) : BitVec w × Bool :=
  let v := x.1
  let low := v.getLsbD 0
  match op with
  | .rol => ((v <<< 1) ||| bit w v.msb, v.msb)
  | .ror => ((v >>> 1) ||| (bit w low <<< (w - 1)), low)
  | .rcl => ((v <<< 1) ||| bit w x.2, v.msb)
  | .rcr => ((v >>> 1) ||| (bit w x.2 <<< (w - 1)), low)
  | .shl => (v <<< 1, v.msb)
  | .shr => (v >>> 1, low)
  | .sar => ((v >>> 1) ||| (bit w v.msb <<< (w - 1)), low)

/-- R506: `k` steps. -/
def ShiftOp.run {w : Nat} (op : ShiftOp) (k : Nat) (v : BitVec w) (cf : Bool) : BitVec w × Bool :=
  iter op.step k (v, cf)

/-- R507 to R513: OF after a count of 1, from the operand `v0`, the result `v` and the new CF. -/
def ShiftOp.overflow1 {w : Nat} (op : ShiftOp) (v0 v : BitVec w) (cf : Bool) : Bool :=
  match op with
  | .rol | .rcl | .shl => v.msb ^^ cf
  | .ror | .rcr => v.msb ^^ v.getLsbD (w - 2)
  | .shr => v0.msb
  | .sar => false

/-- R506: whether the operation is a shift, which also sets SF, ZF and PF and leaves AF a draw. -/
def ShiftOp.isShift : ShiftOp → Bool
  | .rol | .ror | .rcl | .rcr => false
  | .shl | .shr | .sar => true

/-- R506 to R513: the FLAGS word after a count `k > 0`, `v` the result and `cf` the new CF; `draw` gives the drawn
flags. -/
def ShiftOp.flagsAfter {w : Nat} (op : ShiftOp) (k : Nat) (v0 v : BitVec w) (cf : Bool) (draw : Flag → Bool)
    (fl : Word) : Word :=
  let fl := setFlag fl .cf cf
  let fl := if op.isShift then setFlag (szp v fl) .af (draw .af) else fl
  setFlag fl .ovf (if k = 1 then op.overflow1 v0 v cf else draw .ovf)

/-- R614: the condition of `Jcc` number `cc`. -/
def condition (cc : Nat) (fl : Word) : Bool :=
  let cf := getFlag fl .cf
  let zf := getFlag fl .zf
  let sf := getFlag fl .sf
  let ovf := getFlag fl .ovf
  match cc with
  | 0 => ovf
  | 1 => !ovf
  | 2 => cf
  | 3 => !cf
  | 4 => zf
  | 5 => !zf
  | 6 => cf || zf
  | 7 => !cf && !zf
  | 8 => sf
  | 9 => !sf
  | 10 => getFlag fl .pf
  | 11 => !getFlag fl .pf
  | 12 => sf != ovf
  | 13 => sf == ovf
  | 14 => zf || sf != ovf
  | _ => !zf && sf == ovf

end Sys2Proof.Machine
end

