-- ==== Sys2Proof/Config.lean ====
section
/-! DEFINITION. What is fixed for the hardware (spec/00_scope.md rule R9) and the values the spec leaves
free (rules R10, R16; spec/93_implementation_defined.md U1, U18). The named parameters of rule R10 that a
model takes as arguments are plain data and stand in `Machine.Params` (Machine/State.lean). -/

namespace Sys2Proof

/-- R9, R150: memory is 2^20 bytes, physical addresses 0x00000 to 0xFFFFF. -/
def Config.memSize : Nat := 1048576

/-- R202: the number of consecutive prefix bytes at which the step takes `PrefixHang`. -/
def Config.prefixLimit : Nat := 65536

/-- `UNDEF_FLAG` (R10, R16, D3): the value drawn for the FLAGS bit `bit` at draw number `draw`. It has no
body: nothing can be proved of a drawn bit, and the draw number makes every draw a fresh one. -/
opaque Config.undefFlag (draw bit : Nat) : Bool

/-- `EXT_IO` (R10, R164, D16): the byte the keyboard or VGA port `port` answers at draw number `draw`. It has no
body: any value, possibly another one at each read. -/
opaque Config.extIo (draw : Nat) (port : Word) : Byte

end Sys2Proof
end

