-- ==== Sys2Proof/Machine/State.lean ====
section
/-! DEFINITION. The state of the block as plain data (spec/10_state.md rule R50, spec/60_exceptions.md rule
R815, spec/49_mcb_allocator.md rule R767), the launch record (spec/70_reset_and_hazards.md rule R901) and the
state a run starts from. -/

namespace Sys2Proof.Machine

/-- R51: the eight general registers, in the order of their encoding index. -/
structure Regs where
  ax : Word
  cx : Word
  dx : Word
  bx : Word
  sp : Word
  bp : Word
  si : Word
  di : Word
  deriving DecidableEq, Repr

/-- R54: the four segment registers, in the order of their encoding index. -/
structure Segs where
  es : Word
  cs : Word
  ss : Word
  ds : Word
  deriving DecidableEq, Repr

/-- R75: the reasons of a terminal machine fault. -/
inductive MachineFault where
  /-- R713: an undefined encoding; the prefix, opcode and ModRM bytes, CS and `start_IP`. -/
  | undefinedOpcode (bytes : List Byte) (cs ip : Word)
  /-- R712: a callback id with no registry entry. -/
  | unknownCallback (id : Word)
  /-- R768: the allocator met a broken chain at this header segment. -/
  | mcbCorrupt (segment : Nat)
  /-- R202: 65536 consecutive prefix bytes. -/
  | prefixHang
  /-- R831: the host refused to continue. -/
  | hostRefused (reason : String)
  deriving DecidableEq, Repr

/-- R75: `status`. -/
inductive Status where
  | running
  | exited (code : Word)
  | fault (reason : MachineFault)
  deriving DecidableEq, Repr

/-- R71: the repeat mode a prefix selects. -/
inductive Rep where
  | rep
  | repne
  deriving DecidableEq, Repr

/-- R71: the decode-transient state of one step. The opcode, ModRM byte and operands of rule R71 are the decoded
`Instr` itself; `calledInt` records whether the instruction performed the interrupt-call (R200, last line). -/
structure Transient where
  segOvr : Option SegReg
  rep : Option Rep
  lock : Bool
  startIp : Word
  tfAtStart : Bool
  prefixBytes : List Byte
  calledInt : Bool
  deriving DecidableEq, Repr

/-- R71: between steps there is no decode-transient state. -/
def Transient.none : Transient :=
  { segOvr := .none, rep := .none, lock := false, startIp := 0, tfAtStart := false, prefixBytes := [],
    calledInt := false }

/-- R815: the access mode of a channel's data port. -/
inductive Access where
  | lsb
  | msb
  | lsbMsb
  deriving DecidableEq, Repr

/-- R815: one channel of the PIT. -/
structure Channel where
  count : Word
  reload : Nat
  ce : Nat
  active : Bool
  latch : Word
  latched : Bool
  access : Access
  mode : BitVec 3
  bcd : Bool
  wtoggle : Bool
  rtoggle : Bool
  wlow : Byte
  deriving DecidableEq, Repr

/-- R828: a channel at construction. -/
def Channel.construction : Channel :=
  { count := 0, reload := 65536, ce := 0, active := false, latch := 0, latched := false, access := .lsbMsb,
    mode := 0, bcd := false, wtoggle := false, rtoggle := false, wlow := 0 }

/-- R815: the PIT counter bank. -/
structure Pit where
  c0 : Channel
  c1 : Channel
  c2 : Channel
  deriving DecidableEq, Repr

/-- R828: the PIT at construction. -/
def Pit.construction : Pit :=
  { c0 := .construction, c1 := .construction, c2 := .construction }

/-- R10: the named parameters a model takes as arguments. They are part of the state so that every claim over
states is a claim over every value of them; no step changes one. -/
structure Params where
  singleStep : Bool
  iretDelay : Bool
  idivMinQuotientFaults : Bool
  callbackSegment : Word
  mcbBase : Word
  /-- A paragraph number of 17 bits (R10). -/
  mcbTop : BitVec 17
  pitFrequency : Nat
  cpuFrequency : Nat
  deriving DecidableEq, Repr

/-- R10: the defaults; the open ones are DESIGN CHOICE (notes/assumptions/2.md). -/
def Params.defaults : Params :=
  { singleStep := false, iretDelay := true, idivMinQuotientFaults := true, callbackSegment := 0xF000,
    mcbBase := 0x1000, mcbTop := 0x1100, pitFrequency := 1193182, cpuFrequency := 4772727 }

/-- R757: the allocation strategies. -/
inductive Strategy where
  | firstFit
  | bestFit
  | lastFit
  deriving DecidableEq, Repr

/-- R754 to R765, R831: the allocator operations the host may call, Coalesce (R756) among them. DESIGN CHOICE: that
Coalesce is one, and what it answers (notes/assumptions/18.md); that the segments and `m` of Free, Reallocate and Coalesce are
16-bit words (notes/assumptions/19.md). -/
inductive McbOp where
  | boot
  | validate
  | coalesce (h : Word)
  | allocate (r : Word) (strategy : Strategy) (pid : Word)
  | free (seg : Word)
  | reallocate (seg m : Word)
  deriving DecidableEq, Repr

/-- R767: what an allocator operation answers (`valid` is Validate's `Ok` of R755). -/
inductive McbResult where
  | ok (seg : Nat)
  | valid
  | outOfMemory (largest : Nat)
  | tooSmall (max : Nat)
  | refused
  | corrupt (h : Nat)
  deriving DecidableEq, Repr

/-- R831: what the host may do. -/
inductive HostAction where
  /-- Write the memory byte at `phys(seg, off)`. -/
  | writeMem (seg off : Word) (v : Byte)
  /-- Read the memory byte at `phys(seg, off)`, for inspection. -/
  | readMem (seg off : Word)
  | writeReg (r : Reg16) (v : Word)
  | writeSeg (r : SegReg) (v : Word)
  | writeIp (v : Word)
  | writeFlags (v : Word)
  /-- Read every CPU register and FLAGS, for inspection. -/
  | readRegs
  | raiseNmi
  | raiseIntr (v : Byte)
  /-- Advance the PIT by `n` cycles. -/
  | runPit (n : Nat)
  /-- An IO port access by the host (R831: the PIT is reached "through `run_cycles` and the IO ports"). -/
  | ioRead (port : Word)
  | ioWrite (port : Word) (v : Byte)
  | mcb (op : McbOp)
  /-- Write a stub at `CALLBACK_SEGMENT:off` and the registry entry `id ↦ handler`. -/
  | installCallback (id off : Word) (handler : Nat)
  /-- R802: write the far pointer `seg:off` as the vector-table entry `v`. -/
  | installVector (v : Byte) (off seg : Word)
  | pause
  | resume
  | exit (code : Word)
  | refuse (reason : String)
  deriving DecidableEq, Repr

/-- R829, R906: who moves next, the CPU or the host side (scheduler, devices, DOS layers). -/
inductive Turn where
  | cpu
  | host (a : HostAction)
  deriving DecidableEq, Repr

/-- Memory as (physical address, byte) pairs; the canonical form is `Memory.wf` (Machine/Ops.lean). -/
abbrev Memory := List Host.Cell

/-- `CALLBACK_REGISTRY` (R10): callback id ↦ number of the host handler. -/
abbrev Registry := List (Word × Nat)

/-- R50: the machine. Below the record of rule R50 stand the registry and parameters of rule R10 and the model's
own fields: the decode-transient state of the step in progress, the schedule, the draw number and the last
allocator result. -/
structure State where
  regs : Regs
  segs : Segs
  ip : Word
  flags : Word
  nmiPending : Bool
  intrPending : Bool
  intrVector : Byte
  intDelay : Bool
  halted : Bool
  trapPending : Bool
  status : Status
  mem : Memory
  pit : Pit
  registry : Registry
  params : Params
  /-- R71: reset at the top of a step and gone at its end. -/
  tr : Transient
  /-- R829: the coming turns; when the list is empty the CPU moves. Model's own (notes/assumptions/5.md). -/
  sched : List Turn
  /-- The number of the next draw (R16). Model's own (notes/assumptions/4.md). -/
  draws : Nat
  /-- R767: the answer of the last allocator operation, for the host. Model's own (notes/assumptions/8.md). -/
  mcbResult : Option McbResult
  deriving DecidableEq, Repr

/-- Why `step` answers no next state. -/
inductive Fault where
  /-- Raised by `step` when `status = Fault(reason)`: the fault is terminal and no further step runs (R75, R812).
  Safe: the spec ends the machine here. -/
  | machineFault (reason : MachineFault)
  /-- Raised by `step` when `status = Exited(code)`: the run has ended successfully and no further step runs (R75,
  R906). Safe: the spec ends the run here. -/
  | exited (code : Word)
  /-- Would be raised by `step` if the six bytes it fetches did not hold a whole instruction; never raised
  (`Laws.decode_codeBytes`). Safe. -/
  | truncatedFetch
  deriving DecidableEq, Repr

/-- Why an instruction has no meaning. -/
inductive Refusal where
  /-- Raised by an arm of `exec` whose instruction is not modelled yet; no arm is. Safe: nothing can be proved of a
  run through it. -/
  | notModelled (mnemonic : String)
  deriving DecidableEq, Repr

/-- R901: the launch record. -/
structure Launch where
  cs : Word
  ip : Word
  ss : Word
  sp : Word
  ds : Word
  es : Word
  ax : Word
  bx : Word
  cx : Word
  dx : Word
  si : Word
  di : Word
  bp : Word
  flags : Word
  mem : Memory
  deriving DecidableEq, Repr

/-- The start state of the rows of spec/95_test_vectors.md ("Conventions"), with no memory byte written: the launch
record of `State.reset`. DESIGN CHOICE (notes/assumptions/1.md). -/
def Launch.conventions : Launch :=
  { cs := 0x0100, ip := 0x0100, ss := 0x0200, sp := 0x0100, ds := 0x0200, es := 0x0200,
    ax := 0, bx := 0, cx := 0, dx := 0, si := 0, di := 0, bp := 0, flags := 0x0002, mem := [] }

/-- R78, R900: the machine at launch, from the launch record, the parameters and the registry the boot left. The PIT is at
construction (R78, R828), a DESIGN CHOICE beside R902 step 4: `Safety.Launched` has the states of a boot that programs it first
(notes/assumptions/21.md). -/
def State.launch (l : Launch) (p : Params) (r : Registry) : State :=
  { regs := { ax := l.ax, cx := l.cx, dx := l.dx, bx := l.bx, sp := l.sp, bp := l.bp, si := l.si, di := l.di }
    segs := { es := l.es, cs := l.cs, ss := l.ss, ds := l.ds }
    ip := l.ip
    flags := l.flags
    nmiPending := false
    intrPending := false
    intrVector := 0
    intDelay := false
    halted := false
    trapPending := false
    status := .running
    mem := l.mem
    pit := .construction
    registry := r
    params := p
    tr := .none
    sched := []
    draws := 0
    mcbResult := .none }

/-- The machine right after reset: launched from `Launch.conventions` with the default parameters (R10, R78; the block
has no reset of its own, R900). -/
def State.reset : State :=
  State.launch Launch.conventions Params.defaults []

end Sys2Proof.Machine
end

