-- ==== Sys2Proof/Machine/Ops.lean ====
section
/-! DEFINITION. The named operations over registers and memory (spec/00_scope.md rules R13, R14), the draws of undefined
flags (R16), the interrupt-call and the return from it (spec/60_exceptions.md rules R801, R811), and the machine faults
(R16, R75). -/

namespace Sys2Proof.Machine

/-! ### Registers (R13, R51, R52, R54) -/

def Regs.get (r : Regs) : Reg16 → Word
  | .ax => r.ax | .cx => r.cx | .dx => r.dx | .bx => r.bx | .sp => r.sp | .bp => r.bp | .si => r.si | .di => r.di

def Regs.set (r : Regs) (i : Reg16) (v : Word) : Regs :=
  match i with
  | .ax => { r with ax := v }
  | .cx => { r with cx := v }
  | .dx => { r with dx := v }
  | .bx => { r with bx := v }
  | .sp => { r with sp := v }
  | .bp => { r with bp := v }
  | .si => { r with si := v }
  | .di => { r with di := v }

def Segs.get (r : Segs) : SegReg → Word
  | .es => r.es | .cs => r.cs | .ss => r.ss | .ds => r.ds

def Segs.set (r : Segs) (i : SegReg) (v : Word) : Segs :=
  match i with
  | .es => { r with es := v }
  | .cs => { r with cs := v }
  | .ss => { r with ss := v }
  | .ds => { r with ds := v }

/-- R52: the 16-bit register an 8-bit register is half of. -/
def Reg8.home : Reg8 → Reg16
  | .al | .ah => .ax
  | .cl | .ch => .cx
  | .dl | .dh => .dx
  | .bl | .bh => .bx

/-- R52: whether an 8-bit register is the high half. -/
def Reg8.isHigh : Reg8 → Bool
  | .al | .cl | .dl | .bl => false
  | .ah | .ch | .dh | .bh => true

/-- R52: `R8[i]`. -/
def Regs.get8 (r : Regs) (i : Reg8) : Byte :=
  let v := r.get (Reg8.home i)
  if Reg8.isHigh i then hiByte v else loByte v

/-- R52: `R8[i] <- v`; the other half is unchanged. -/
def Regs.set8 (r : Regs) (i : Reg8) (v : Byte) : Regs :=
  let old := r.get (Reg8.home i)
  r.set (Reg8.home i) (if Reg8.isHigh i then mkWord v (loByte old) else mkWord (hiByte old) v)

/-- R13: `R16[i]`. -/
def State.reg16 (s : State) (i : Reg16) : Word := s.regs.get i

/-- R13: `R16[i] <- v`. -/
def State.setReg16 (s : State) (i : Reg16) (v : Word) : State := { s with regs := s.regs.set i v }

/-- R13: `R8[i]`. -/
def State.reg8 (s : State) (i : Reg8) : Byte := s.regs.get8 i

/-- R13: `R8[i] <- v`. -/
def State.setReg8 (s : State) (i : Reg8) (v : Byte) : State := { s with regs := s.regs.set8 i v }

/-- R13: `SREG[i]`. -/
def State.sreg (s : State) (i : SegReg) : Word := s.segs.get i

/-- R13: `SREG[i] <- v`. -/
def State.setSreg (s : State) (i : SegReg) (v : Word) : State := { s with segs := s.segs.set i v }

/-- `FLAGS.f`. -/
def State.flag (s : State) (f : Flag) : Bool := getFlag s.flags f

/-- `FLAGS.f <- b`. -/
def State.setFlag (s : State) (f : Flag) (b : Bool) : State := { s with flags := Machine.setFlag s.flags f b }

/-! ### Memory (R150 to R154, R157) -/

/-- What a byte of memory that nothing has written reads as. DESIGN CHOICE (notes/assumptions/3.md). -/
def Memory.unlisted : Byte := 0

/-- The canonical form: addresses strictly rising and below 2^20 (R150), no entry equal to what an unlisted address
reads as. -/
abbrev Memory.wf (m : Memory) : Prop :=
  m.Pairwise (fun a b => a.1 < b.1) ∧ ∀ c ∈ m, c.1 < Config.memSize ∧ c.2 ≠ Memory.unlisted

/-- R152: the byte at an address. -/
def Memory.read : Memory → Nat → Byte
  | [], _ => Memory.unlisted
  | (b, u) :: m, a => if b = a then u else Memory.read m a

/-- A cell put in its place in a list whose addresses rise and do not hold `a`. -/
def Memory.insert (a : Nat) (v : Byte) : Memory → Memory
  | [] => [(a, v)]
  | (b, u) :: m => if a < b then (a, v) :: (b, u) :: m else (b, u) :: Memory.insert a v m

/-- A memory without an entry for `a`. -/
def Memory.erase (m : Memory) (a : Nat) : Memory := m.filter fun c => c.1 != a

/-- R152, R157: the byte at `a` replaced, no other byte changed. -/
def Memory.write (m : Memory) (a : Nat) (v : Byte) : Memory :=
  if v = Memory.unlisted then m.erase a else Memory.insert a v (m.erase a)

/-- R14, R151: `phys`. -/
def phys (seg off : Word) : Nat := (16 * seg.toNat + off.toNat) % Config.memSize

/-- R153: the physical address of a word's high byte. -/
def nextPhys (pa : Nat) : Nat := (pa + 1) % Config.memSize

/-- `MemRead(pa, 1)`. -/
def State.memRead8 (s : State) (pa : Nat) : Byte := s.mem.read pa

/-- `MemRead(pa, 2)` (R153): little-endian, the high byte at the next physical address. -/
def State.memRead16 (s : State) (pa : Nat) : Word := mkWord (s.mem.read (nextPhys pa)) (s.mem.read pa)

/-- `MemWrite(pa, 1, v)`. -/
def State.memWrite8 (s : State) (pa : Nat) (v : Byte) : State := { s with mem := s.mem.write pa v }

/-- `MemWrite(pa, 2, v)` (R153): the low byte first. -/
def State.memWrite16 (s : State) (pa : Nat) (v : Word) : State :=
  { s with mem := (s.mem.write pa (loByte v)).write (nextPhys pa) (hiByte v) }

/-- `SegRead(seg, off, 1)`. -/
def State.segRead8 (s : State) (seg off : Word) : Byte := s.memRead8 (phys seg off)

/-- `SegRead(seg, off, 2)`. -/
def State.segRead16 (s : State) (seg off : Word) : Word := s.memRead16 (phys seg off)

/-- `SegWrite(seg, off, 1, v)`. -/
def State.segWrite8 (s : State) (seg off : Word) (v : Byte) : State := s.memWrite8 (phys seg off) v

/-- `SegWrite(seg, off, 2, v)`. -/
def State.segWrite16 (s : State) (seg off : Word) (v : Word) : State := s.memWrite16 (phys seg off) v

/-! ### The stack (R170, R300) -/

/-- `SP <- trunc_16(SP - 2)`. -/
def State.decSp (s : State) : State := s.setReg16 .sp (s.regs.sp - 2)

/-- `Push16(v)`. -/
def State.push16 (s : State) (v : Word) : State :=
  let s := s.decSp
  s.segWrite16 s.segs.ss s.regs.sp v

/-- The word `Pop16()` returns. -/
def State.top16 (s : State) : Word := s.segRead16 s.segs.ss s.regs.sp

/-- The state `Pop16()` leaves. -/
def State.drop16 (s : State) : State := s.setReg16 .sp (s.regs.sp + 2)

/-! ### Draws (R16) -/

/-- The value of flag `f` in draw number `n`. -/
def drawnFlag (n : Nat) (f : Flag) : Bool := Config.undefFlag n f.bit

/-- `fs <- draw()`: each flag of the list gets a fresh unconstrained value. -/
def State.drawFlags (s : State) (fs : List Flag) : State :=
  { s with flags := fs.foldl (fun fl f => Machine.setFlag fl f (drawnFlag s.draws f)) s.flags, draws := s.draws + 1 }

/-- The six status flags (R413). -/
def statusFlags : List Flag := [.cf, .pf, .af, .zf, .sf, .ovf]

/-! ### Taking an interrupt or exception, and returning (R800, R801, R811) -/

/-- `InterruptCall(v)` (R801): the vector is read before the three pushes (90 C13). -/
def interruptCall (v : Byte) (s : State) : State :=
  let newIp := s.memRead16 (4 * v.toNat)
  let newCs := s.memRead16 (4 * v.toNat + 2)
  let t := ((s.push16 s.flags).push16 s.segs.cs).push16 s.ip
  { t with
    flags := setFlag (setFlag s.flags .ie false) .tf false
    segs := { s.segs with cs := newCs }
    ip := newIp
    tr := { s.tr with calledInt := true } }

/-- R811, R638: `IP <- Pop16(); CS <- Pop16(); FLAGS <- Pop16()`. -/
def interruptReturn (s : State) : State :=
  let s := { s.drop16 with ip := s.top16 }
  let s := s.drop16.setSreg .cs s.top16
  { s.drop16 with flags := s.top16 }

/-- `raise DivideError()` (R16): `InterruptCall(0)`. -/
def divideError (s : State) : State := interruptCall 0 s

/-- `fault F(info)` raised by an instruction (R16, R713): the terminal state, with IP back at `start_IP`. -/
def faultAtStart (r : MachineFault) (s : State) : State :=
  { s with status := .fault r, ip := s.tr.startIp }

/-- R805: `Raise(v)`; one slot, the later raise wins (D28). -/
def raiseIntr (v : Byte) (s : State) : State := { s with intrPending := true, intrVector := v }

end Sys2Proof.Machine
end

