-- ==== Sys2Proof/Machine/Operands.lean ====
section
/-! DEFINITION. Decoded operands, their effective addresses and segments, and reading and writing them
(spec/00_scope.md rule R15, spec/30_encoding.md rules R205 to R208, R225). -/

namespace Sys2Proof.Machine

/-- R15: an 8-bit operand. -/
inductive Operand8 where
  | reg (r : Reg8)
  | mem (seg off : Word)
  | imm (v : Byte)
  deriving DecidableEq, Repr

/-- R15: a 16-bit operand. -/
inductive Operand16 where
  | reg (r : Reg16)
  | mem (seg off : Word)
  | imm (v : Word)
  deriving DecidableEq, Repr

/-- R206: `base_index(rm)`. -/
def baseValue (s : State) : Base → Word
  | .bxSi => s.regs.bx + s.regs.si
  | .bxDi => s.regs.bx + s.regs.di
  | .bpSi => s.regs.bp + s.regs.si
  | .bpDi => s.regs.bp + s.regs.di
  | .si => s.regs.si
  | .di => s.regs.di
  | .bp => s.regs.bp
  | .bx => s.regs.bx

/-- R206: the effective address, modulo 2^16. -/
def ea (s : State) : Mem → Word
  | .direct d => d
  | .base b => baseValue s b
  | .disp8 b d => baseValue s b + sext16 d
  | .disp16 b d => baseValue s b + d

/-- R208: whether the base register is BP, whose default segment is SS. -/
def Base.usesBp : Base → Bool
  | .bpSi | .bpDi | .bp => true
  | .bxSi | .bxDi | .si | .di | .bx => false

/-- R208: the default segment register of a memory operand. -/
def defaultSeg : Mem → SegReg
  | .direct _ => .ds
  | .base b | .disp8 b _ | .disp16 b _ => if Base.usesBp b then .ss else .ds

/-- R208, R225: the override's segment where one is active, else that of `d`. -/
def segOr (s : State) (d : SegReg) : Word := s.sreg (s.tr.segOvr.getD d)

/-- R208: the segment of a memory operand. -/
def memSeg (s : State) (m : Mem) : Word := segOr s (defaultSeg m)

/-- R15, R206: an 8-bit `rm` operand decoded, its registers read now. -/
def rm8 (s : State) : RM8 → Operand8
  | .reg r => .reg r
  | .mem m => .mem (memSeg s m) (ea s m)

/-- R15, R206: a 16-bit `rm` operand decoded, its registers read now. -/
def rm16 (s : State) : RM16 → Operand16
  | .reg r => .reg r
  | .mem m => .mem (memSeg s m) (ea s m)

/-- R15: `ReadOp`. -/
def State.readOp8 (s : State) : Operand8 → Byte
  | .reg r => s.reg8 r
  | .mem seg off => s.segRead8 seg off
  | .imm v => v

/-- R15: `ReadOp`. -/
def State.readOp16 (s : State) : Operand16 → Word
  | .reg r => s.reg16 r
  | .mem seg off => s.segRead16 seg off
  | .imm v => v

/-- R15: `WriteOp`; "writing an immediate operand never occurs". -/
def State.writeOp8 (s : State) (v : Byte) : Operand8 → State
  | .reg r => s.setReg8 r v
  | .mem seg off => s.segWrite8 seg off v
  | .imm _ => s

/-- R15: `WriteOp`; "writing an immediate operand never occurs". -/
def State.writeOp16 (s : State) (v : Word) : Operand16 → State
  | .reg r => s.setReg16 r v
  | .mem seg off => s.segWrite16 seg off v
  | .imm _ => s

/-- R211: the offset word of a far pointer in memory. -/
def farOff (s : State) (m : Mem) : Word := s.segRead16 (memSeg s m) (ea s m)

/-- R211: the segment word of a far pointer in memory, at `trunc_16(ea + 2)`. -/
def farSeg (s : State) (m : Mem) : Word := s.segRead16 (memSeg s m) (ea s m + 2)

/-- R600: a relative target; `s.ip` is `next_IP`. -/
def relTarget (s : State) (disp : Word) : Word := s.ip + disp

end Sys2Proof.Machine
end

