-- ==== Sys2Proof/Machine/AluOps.lean ====
section
/-! DEFINITION. The shape shared by the eight binary ALU operations (spec/41_arithmetic.md rule R400): read both operands, compute, set
flags, write the result back unless the operation is CMP. -/

namespace Sys2Proof.Machine

/-- R400: a binary ALU operation on 8-bit operands. -/
def alu8 (op : AluOp) (dst src : Operand8) (s : State) : State :=
  let x := op.compute (s.readOp8 dst) (s.readOp8 src) s.flags
  let t := { s with flags := x.2 }
  if op.writes then t.writeOp8 x.1 dst else t

/-- R400: a binary ALU operation on 16-bit operands. -/
def alu16 (op : AluOp) (dst src : Operand16) (s : State) : State :=
  let x := op.compute (s.readOp16 dst) (s.readOp16 src) s.flags
  let t := { s with flags := x.2 }
  if op.writes then t.writeOp16 x.1 dst else t

end Sys2Proof.Machine
end

