-- ==== Sys2Proof/Machine/Arith.lean ====
section
/-! DEFINITION. ADD, ADC, SUB, SBB, CMP, INC, DEC and NEG (spec/41_arithmetic.md rules R403 to R410). -/

namespace Sys2Proof.Machine

/-- R408 to R410: an 8-bit operand replaced by a computed value, with its flags. -/
def unary8 (f : Byte → Word → Byte × Word) (dst : Operand8) (s : State) : State :=
  let x := f (s.readOp8 dst) s.flags
  { s with flags := x.2 }.writeOp8 x.1 dst

/-- R408 to R410: a 16-bit operand replaced by a computed value, with its flags. -/
def unary16 (f : Word → Word → Word × Word) (dst : Operand16) (s : State) : State :=
  let x := f (s.readOp16 dst) s.flags
  { s with flags := x.2 }.writeOp16 x.1 dst

/-- R410: `0 - d`. -/
def negFlags {w : Nat} (d : BitVec w) (fl : Word) : BitVec w × Word := subFlags 0 d false fl

/-- R403: 00 ADD Eb,Gb. -/
def execAddEbGb (e : RM8) (g : Reg8) (s : State) : Host.Outcome State Fault Refusal :=
  .next (alu8 .add (rm8 s e) (.reg g) s)

/-- R403: 01 ADD Ev,Gv. -/
def execAddEvGv (e : RM16) (g : Reg16) (s : State) : Host.Outcome State Fault Refusal :=
  .next (alu16 .add (rm16 s e) (.reg g) s)

/-- R403: 02 ADD Gb,Eb. -/
def execAddGbEb (e : RM8) (g : Reg8) (s : State) : Host.Outcome State Fault Refusal :=
  .next (alu8 .add (.reg g) (rm8 s e) s)

/-- R403: 03 ADD Gv,Ev. -/
def execAddGvEv (e : RM16) (g : Reg16) (s : State) : Host.Outcome State Fault Refusal :=
  .next (alu16 .add (.reg g) (rm16 s e) s)

/-- R403: 04 ADD AL,Ib. -/
def execAddAlIb (v : Byte) (s : State) : Host.Outcome State Fault Refusal := .next (alu8 .add (.reg .al) (.imm v) s)

/-- R403: 05 ADD AX,Iv. -/
def execAddAxIv (v : Word) (s : State) : Host.Outcome State Fault Refusal := .next (alu16 .add (.reg .ax) (.imm v) s)

/-- R403: 80 /0 ADD Eb,Ib. -/
def execAddEbIb (e : RM8) (v : Byte) (s : State) : Host.Outcome State Fault Refusal :=
  .next (alu8 .add (rm8 s e) (.imm v) s)

/-- R403: 82 /0 ADD Eb,Ib. -/
def execAddEbIb82 (e : RM8) (v : Byte) (s : State) : Host.Outcome State Fault Refusal :=
  .next (alu8 .add (rm8 s e) (.imm v) s)

/-- R403: 81 /0 ADD Ev,Iv. -/
def execAddEvIv (e : RM16) (v : Word) (s : State) : Host.Outcome State Fault Refusal :=
  .next (alu16 .add (rm16 s e) (.imm v) s)

/-- R403: 83 /0 ADD Ev,Ib. -/
def execAddEvIb (e : RM16) (v : Byte) (s : State) : Host.Outcome State Fault Refusal :=
  .next (alu16 .add (rm16 s e) (.imm (sext16 v)) s)

/-- R404: 10 ADC Eb,Gb. -/
def execAdcEbGb (e : RM8) (g : Reg8) (s : State) : Host.Outcome State Fault Refusal :=
  .next (alu8 .adc (rm8 s e) (.reg g) s)

/-- R404: 11 ADC Ev,Gv. -/
def execAdcEvGv (e : RM16) (g : Reg16) (s : State) : Host.Outcome State Fault Refusal :=
  .next (alu16 .adc (rm16 s e) (.reg g) s)

/-- R404: 12 ADC Gb,Eb. -/
def execAdcGbEb (e : RM8) (g : Reg8) (s : State) : Host.Outcome State Fault Refusal :=
  .next (alu8 .adc (.reg g) (rm8 s e) s)

/-- R404: 13 ADC Gv,Ev. -/
def execAdcGvEv (e : RM16) (g : Reg16) (s : State) : Host.Outcome State Fault Refusal :=
  .next (alu16 .adc (.reg g) (rm16 s e) s)

/-- R404: 14 ADC AL,Ib. -/
def execAdcAlIb (v : Byte) (s : State) : Host.Outcome State Fault Refusal := .next (alu8 .adc (.reg .al) (.imm v) s)

/-- R404: 15 ADC AX,Iv. -/
def execAdcAxIv (v : Word) (s : State) : Host.Outcome State Fault Refusal := .next (alu16 .adc (.reg .ax) (.imm v) s)

/-- R404: 80 /2 ADC Eb,Ib. -/
def execAdcEbIb (e : RM8) (v : Byte) (s : State) : Host.Outcome State Fault Refusal :=
  .next (alu8 .adc (rm8 s e) (.imm v) s)

/-- R404: 82 /2 ADC Eb,Ib. -/
def execAdcEbIb82 (e : RM8) (v : Byte) (s : State) : Host.Outcome State Fault Refusal :=
  .next (alu8 .adc (rm8 s e) (.imm v) s)

/-- R404: 81 /2 ADC Ev,Iv. -/
def execAdcEvIv (e : RM16) (v : Word) (s : State) : Host.Outcome State Fault Refusal :=
  .next (alu16 .adc (rm16 s e) (.imm v) s)

/-- R404: 83 /2 ADC Ev,Ib. -/
def execAdcEvIb (e : RM16) (v : Byte) (s : State) : Host.Outcome State Fault Refusal :=
  .next (alu16 .adc (rm16 s e) (.imm (sext16 v)) s)

/-- R405: 28 SUB Eb,Gb. -/
def execSubEbGb (e : RM8) (g : Reg8) (s : State) : Host.Outcome State Fault Refusal :=
  .next (alu8 .sub (rm8 s e) (.reg g) s)

/-- R405: 29 SUB Ev,Gv. -/
def execSubEvGv (e : RM16) (g : Reg16) (s : State) : Host.Outcome State Fault Refusal :=
  .next (alu16 .sub (rm16 s e) (.reg g) s)

/-- R405: 2A SUB Gb,Eb. -/
def execSubGbEb (e : RM8) (g : Reg8) (s : State) : Host.Outcome State Fault Refusal :=
  .next (alu8 .sub (.reg g) (rm8 s e) s)

/-- R405: 2B SUB Gv,Ev. -/
def execSubGvEv (e : RM16) (g : Reg16) (s : State) : Host.Outcome State Fault Refusal :=
  .next (alu16 .sub (.reg g) (rm16 s e) s)

/-- R405: 2C SUB AL,Ib. -/
def execSubAlIb (v : Byte) (s : State) : Host.Outcome State Fault Refusal := .next (alu8 .sub (.reg .al) (.imm v) s)

/-- R405: 2D SUB AX,Iv. -/
def execSubAxIv (v : Word) (s : State) : Host.Outcome State Fault Refusal := .next (alu16 .sub (.reg .ax) (.imm v) s)

/-- R405: 80 /5 SUB Eb,Ib. -/
def execSubEbIb (e : RM8) (v : Byte) (s : State) : Host.Outcome State Fault Refusal :=
  .next (alu8 .sub (rm8 s e) (.imm v) s)

/-- R405: 82 /5 SUB Eb,Ib. -/
def execSubEbIb82 (e : RM8) (v : Byte) (s : State) : Host.Outcome State Fault Refusal :=
  .next (alu8 .sub (rm8 s e) (.imm v) s)

/-- R405: 81 /5 SUB Ev,Iv. -/
def execSubEvIv (e : RM16) (v : Word) (s : State) : Host.Outcome State Fault Refusal :=
  .next (alu16 .sub (rm16 s e) (.imm v) s)

/-- R405: 83 /5 SUB Ev,Ib. -/
def execSubEvIb (e : RM16) (v : Byte) (s : State) : Host.Outcome State Fault Refusal :=
  .next (alu16 .sub (rm16 s e) (.imm (sext16 v)) s)

/-- R406: 18 SBB Eb,Gb. -/
def execSbbEbGb (e : RM8) (g : Reg8) (s : State) : Host.Outcome State Fault Refusal :=
  .next (alu8 .sbb (rm8 s e) (.reg g) s)

/-- R406: 19 SBB Ev,Gv. -/
def execSbbEvGv (e : RM16) (g : Reg16) (s : State) : Host.Outcome State Fault Refusal :=
  .next (alu16 .sbb (rm16 s e) (.reg g) s)

/-- R406: 1A SBB Gb,Eb. -/
def execSbbGbEb (e : RM8) (g : Reg8) (s : State) : Host.Outcome State Fault Refusal :=
  .next (alu8 .sbb (.reg g) (rm8 s e) s)

/-- R406: 1B SBB Gv,Ev. -/
def execSbbGvEv (e : RM16) (g : Reg16) (s : State) : Host.Outcome State Fault Refusal :=
  .next (alu16 .sbb (.reg g) (rm16 s e) s)

/-- R406: 1C SBB AL,Ib. -/
def execSbbAlIb (v : Byte) (s : State) : Host.Outcome State Fault Refusal := .next (alu8 .sbb (.reg .al) (.imm v) s)

/-- R406: 1D SBB AX,Iv. -/
def execSbbAxIv (v : Word) (s : State) : Host.Outcome State Fault Refusal := .next (alu16 .sbb (.reg .ax) (.imm v) s)

/-- R406: 80 /3 SBB Eb,Ib. -/
def execSbbEbIb (e : RM8) (v : Byte) (s : State) : Host.Outcome State Fault Refusal :=
  .next (alu8 .sbb (rm8 s e) (.imm v) s)

/-- R406: 82 /3 SBB Eb,Ib. -/
def execSbbEbIb82 (e : RM8) (v : Byte) (s : State) : Host.Outcome State Fault Refusal :=
  .next (alu8 .sbb (rm8 s e) (.imm v) s)

/-- R406: 81 /3 SBB Ev,Iv. -/
def execSbbEvIv (e : RM16) (v : Word) (s : State) : Host.Outcome State Fault Refusal :=
  .next (alu16 .sbb (rm16 s e) (.imm v) s)

/-- R406: 83 /3 SBB Ev,Ib. -/
def execSbbEvIb (e : RM16) (v : Byte) (s : State) : Host.Outcome State Fault Refusal :=
  .next (alu16 .sbb (rm16 s e) (.imm (sext16 v)) s)

/-- R407: 38 CMP Eb,Gb. -/
def execCmpEbGb (e : RM8) (g : Reg8) (s : State) : Host.Outcome State Fault Refusal :=
  .next (alu8 .cmp (rm8 s e) (.reg g) s)

/-- R407: 39 CMP Ev,Gv. -/
def execCmpEvGv (e : RM16) (g : Reg16) (s : State) : Host.Outcome State Fault Refusal :=
  .next (alu16 .cmp (rm16 s e) (.reg g) s)

/-- R407: 3A CMP Gb,Eb. -/
def execCmpGbEb (e : RM8) (g : Reg8) (s : State) : Host.Outcome State Fault Refusal :=
  .next (alu8 .cmp (.reg g) (rm8 s e) s)

/-- R407: 3B CMP Gv,Ev. -/
def execCmpGvEv (e : RM16) (g : Reg16) (s : State) : Host.Outcome State Fault Refusal :=
  .next (alu16 .cmp (.reg g) (rm16 s e) s)

/-- R407: 3C CMP AL,Ib. -/
def execCmpAlIb (v : Byte) (s : State) : Host.Outcome State Fault Refusal := .next (alu8 .cmp (.reg .al) (.imm v) s)

/-- R407: 3D CMP AX,Iv. -/
def execCmpAxIv (v : Word) (s : State) : Host.Outcome State Fault Refusal := .next (alu16 .cmp (.reg .ax) (.imm v) s)

/-- R407: 80 /7 CMP Eb,Ib. -/
def execCmpEbIb (e : RM8) (v : Byte) (s : State) : Host.Outcome State Fault Refusal :=
  .next (alu8 .cmp (rm8 s e) (.imm v) s)

/-- R407: 82 /7 CMP Eb,Ib. -/
def execCmpEbIb82 (e : RM8) (v : Byte) (s : State) : Host.Outcome State Fault Refusal :=
  .next (alu8 .cmp (rm8 s e) (.imm v) s)

/-- R407: 81 /7 CMP Ev,Iv. -/
def execCmpEvIv (e : RM16) (v : Word) (s : State) : Host.Outcome State Fault Refusal :=
  .next (alu16 .cmp (rm16 s e) (.imm v) s)

/-- R407: 83 /7 CMP Ev,Ib. -/
def execCmpEvIb (e : RM16) (v : Byte) (s : State) : Host.Outcome State Fault Refusal :=
  .next (alu16 .cmp (rm16 s e) (.imm (sext16 v)) s)

/-- R408: 40 INC AX. -/
def execIncAx (s : State) : Host.Outcome State Fault Refusal := .next (unary16 incFlags (.reg .ax) s)

/-- R408: 41 INC CX. -/
def execIncCx (s : State) : Host.Outcome State Fault Refusal := .next (unary16 incFlags (.reg .cx) s)

/-- R408: 42 INC DX. -/
def execIncDx (s : State) : Host.Outcome State Fault Refusal := .next (unary16 incFlags (.reg .dx) s)

/-- R408: 43 INC BX. -/
def execIncBx (s : State) : Host.Outcome State Fault Refusal := .next (unary16 incFlags (.reg .bx) s)

/-- R408: 44 INC SP. -/
def execIncSp (s : State) : Host.Outcome State Fault Refusal := .next (unary16 incFlags (.reg .sp) s)

/-- R408: 45 INC BP. -/
def execIncBp (s : State) : Host.Outcome State Fault Refusal := .next (unary16 incFlags (.reg .bp) s)

/-- R408: 46 INC SI. -/
def execIncSi (s : State) : Host.Outcome State Fault Refusal := .next (unary16 incFlags (.reg .si) s)

/-- R408: 47 INC DI. -/
def execIncDi (s : State) : Host.Outcome State Fault Refusal := .next (unary16 incFlags (.reg .di) s)

/-- R408: FE /0 INC Eb. -/
def execIncEb (e : RM8) (s : State) : Host.Outcome State Fault Refusal := .next (unary8 incFlags (rm8 s e) s)

/-- R408: FF /0 INC Ev. -/
def execIncEv (e : RM16) (s : State) : Host.Outcome State Fault Refusal := .next (unary16 incFlags (rm16 s e) s)

/-- R409: 48 DEC AX. -/
def execDecAx (s : State) : Host.Outcome State Fault Refusal := .next (unary16 decFlags (.reg .ax) s)

/-- R409: 49 DEC CX. -/
def execDecCx (s : State) : Host.Outcome State Fault Refusal := .next (unary16 decFlags (.reg .cx) s)

/-- R409: 4A DEC DX. -/
def execDecDx (s : State) : Host.Outcome State Fault Refusal := .next (unary16 decFlags (.reg .dx) s)

/-- R409: 4B DEC BX. -/
def execDecBx (s : State) : Host.Outcome State Fault Refusal := .next (unary16 decFlags (.reg .bx) s)

/-- R409: 4C DEC SP. -/
def execDecSp (s : State) : Host.Outcome State Fault Refusal := .next (unary16 decFlags (.reg .sp) s)

/-- R409: 4D DEC BP. -/
def execDecBp (s : State) : Host.Outcome State Fault Refusal := .next (unary16 decFlags (.reg .bp) s)

/-- R409: 4E DEC SI. -/
def execDecSi (s : State) : Host.Outcome State Fault Refusal := .next (unary16 decFlags (.reg .si) s)

/-- R409: 4F DEC DI. -/
def execDecDi (s : State) : Host.Outcome State Fault Refusal := .next (unary16 decFlags (.reg .di) s)

/-- R409: FE /1 DEC Eb. -/
def execDecEb (e : RM8) (s : State) : Host.Outcome State Fault Refusal := .next (unary8 decFlags (rm8 s e) s)

/-- R409: FF /1 DEC Ev. -/
def execDecEv (e : RM16) (s : State) : Host.Outcome State Fault Refusal := .next (unary16 decFlags (rm16 s e) s)

/-- R410: F6 /3 NEG Eb. -/
def execNegEb (e : RM8) (s : State) : Host.Outcome State Fault Refusal := .next (unary8 negFlags (rm8 s e) s)

/-- R410: F7 /3 NEG Ev. -/
def execNegEv (e : RM16) (s : State) : Host.Outcome State Fault Refusal := .next (unary16 negFlags (rm16 s e) s)

end Sys2Proof.Machine
end

