-- ==== Sys2Proof/Machine/Control.lean ====
section
/-! DEFINITION. JMP, CALL, RET, RETF, the conditional jumps, LOOP, JCXZ, INT, INTO and IRET (spec/44_control_transfer.md). In every
meaning `s.ip` is `next_IP` (R217). -/

namespace Sys2Proof.Machine

/-- A near jump. -/
def jumpTo (target : Word) (s : State) : State := { s with ip := target }

/-- A far jump (R603, R605). -/
def jumpFar (off seg : Word) (s : State) : State := { s.setSreg .cs seg with ip := off }

/-- A near call (R606, R608): `next_IP` is pushed. -/
def callTo (target : Word) (s : State) : State := jumpTo target (s.push16 s.ip)

/-- A far call (R607, R609): CS is pushed first, then `next_IP`. -/
def callFar (off seg : Word) (s : State) : State := jumpFar off seg ((s.push16 s.segs.cs).push16 s.ip)

/-- R610: `IP <- Pop16()`. -/
def retNear (s : State) : State := { s.drop16 with ip := s.top16 }

/-- R612: `IP <- Pop16(); CS <- Pop16()`. -/
def retFar (s : State) : State :=
  let s := retNear s
  s.drop16.setSreg .cs s.top16

/-- R611, R613: the stack release after the pops. -/
def release (n : Word) (s : State) : State := s.setReg16 .sp (s.regs.sp + n)

/-- R614: a conditional jump. -/
def jumpIf (cc : Nat) (disp : Byte) (s : State) : State :=
  if condition cc s.flags then jumpTo (relTarget s (sext16 disp)) s else s

/-- R631 to R633: CX decremented, then a jump where CX is not 0 and `more` holds. -/
def loopIf (more : Bool) (disp : Byte) (s : State) : State :=
  let t := s.setReg16 .cx (s.regs.cx - 1)
  if t.regs.cx ≠ 0 ∧ more = true then jumpTo (relTarget t (sext16 disp)) t else t

/-- R638: IRET, with the interrupt delay where the parameter says so (D7). -/
def iret (s : State) : State :=
  let t := interruptReturn s
  { t with intDelay := t.intDelay || t.params.iretDelay }

/-- R601: EB JMP Jb. -/
def execJmpJb (v : Byte) (s : State) : Host.Outcome State Fault Refusal := .next (jumpTo (relTarget s (sext16 v)) s)

/-- R602: E9 JMP Jv. -/
def execJmpJv (v : Word) (s : State) : Host.Outcome State Fault Refusal := .next (jumpTo (relTarget s v) s)

/-- R603: EA JMP Ap. -/
def execJmpAp (off : Word) (seg : Word) (s : State) : Host.Outcome State Fault Refusal := .next (jumpFar off seg s)

/-- R604: FF /4 JMP Ev. -/
def execJmpEv (e : RM16) (s : State) : Host.Outcome State Fault Refusal := .next (jumpTo (s.readOp16 (rm16 s e)) s)

/-- R605: FF /5 JMP Mp. -/
def execJmpMp (m : Mem) (s : State) : Host.Outcome State Fault Refusal := .next (jumpFar (farOff s m) (farSeg s m) s)

/-- R606: E8 CALL Jv. -/
def execCallJv (v : Word) (s : State) : Host.Outcome State Fault Refusal := .next (callTo (relTarget s v) s)

/-- R607: 9A CALL Ap. -/
def execCallAp (off : Word) (seg : Word) (s : State) : Host.Outcome State Fault Refusal := .next (callFar off seg s)

/-- R608: FF /2 CALL Ev. -/
def execCallEv (e : RM16) (s : State) : Host.Outcome State Fault Refusal := .next (callTo (s.readOp16 (rm16 s e)) s)

/-- R609: FF /3 CALL Mp. -/
def execCallMp (m : Mem) (s : State) : Host.Outcome State Fault Refusal := .next (callFar (farOff s m) (farSeg s m) s)

/-- R610: C3 RET. -/
def execRet (s : State) : Host.Outcome State Fault Refusal := .next (retNear s)

/-- R611: C2 RET Iw. -/
def execRetIw (v : Word) (s : State) : Host.Outcome State Fault Refusal := .next (release v (retNear s))

/-- R612: CB RETF. -/
def execRetf (s : State) : Host.Outcome State Fault Refusal := .next (retFar s)

/-- R613: CA RETF Iw. -/
def execRetfIw (v : Word) (s : State) : Host.Outcome State Fault Refusal := .next (release v (retFar s))

/-- R615: 70 JO Jb. -/
def execJoJb (v : Byte) (s : State) : Host.Outcome State Fault Refusal := .next (jumpIf 0 v s)

/-- R616: 71 JNO Jb. -/
def execJnoJb (v : Byte) (s : State) : Host.Outcome State Fault Refusal := .next (jumpIf 1 v s)

/-- R617: 72 JB Jb. -/
def execJbJb (v : Byte) (s : State) : Host.Outcome State Fault Refusal := .next (jumpIf 2 v s)

/-- R618: 73 JNB Jb. -/
def execJnbJb (v : Byte) (s : State) : Host.Outcome State Fault Refusal := .next (jumpIf 3 v s)

/-- R619: 74 JZ Jb. -/
def execJzJb (v : Byte) (s : State) : Host.Outcome State Fault Refusal := .next (jumpIf 4 v s)

/-- R620: 75 JNZ Jb. -/
def execJnzJb (v : Byte) (s : State) : Host.Outcome State Fault Refusal := .next (jumpIf 5 v s)

/-- R621: 76 JBE Jb. -/
def execJbeJb (v : Byte) (s : State) : Host.Outcome State Fault Refusal := .next (jumpIf 6 v s)

/-- R622: 77 JA Jb. -/
def execJaJb (v : Byte) (s : State) : Host.Outcome State Fault Refusal := .next (jumpIf 7 v s)

/-- R623: 78 JS Jb. -/
def execJsJb (v : Byte) (s : State) : Host.Outcome State Fault Refusal := .next (jumpIf 8 v s)

/-- R624: 79 JNS Jb. -/
def execJnsJb (v : Byte) (s : State) : Host.Outcome State Fault Refusal := .next (jumpIf 9 v s)

/-- R625: 7A JP Jb. -/
def execJpJb (v : Byte) (s : State) : Host.Outcome State Fault Refusal := .next (jumpIf 10 v s)

/-- R626: 7B JNP Jb. -/
def execJnpJb (v : Byte) (s : State) : Host.Outcome State Fault Refusal := .next (jumpIf 11 v s)

/-- R627: 7C JL Jb. -/
def execJlJb (v : Byte) (s : State) : Host.Outcome State Fault Refusal := .next (jumpIf 12 v s)

/-- R628: 7D JGE Jb. -/
def execJgeJb (v : Byte) (s : State) : Host.Outcome State Fault Refusal := .next (jumpIf 13 v s)

/-- R629: 7E JLE Jb. -/
def execJleJb (v : Byte) (s : State) : Host.Outcome State Fault Refusal := .next (jumpIf 14 v s)

/-- R630: 7F JG Jb. -/
def execJgJb (v : Byte) (s : State) : Host.Outcome State Fault Refusal := .next (jumpIf 15 v s)

/-- R631: E2 LOOP Jb. -/
def execLoopJb (v : Byte) (s : State) : Host.Outcome State Fault Refusal := .next (loopIf true v s)

/-- R632: E1 LOOPZ Jb. -/
def execLoopzJb (v : Byte) (s : State) : Host.Outcome State Fault Refusal := .next (loopIf (s.flag .zf) v s)

/-- R633: E0 LOOPNZ Jb. -/
def execLoopnzJb (v : Byte) (s : State) : Host.Outcome State Fault Refusal := .next (loopIf (!s.flag .zf) v s)

/-- R634: E3 JCXZ Jb. -/
def execJcxzJb (v : Byte) (s : State) : Host.Outcome State Fault Refusal :=
  .next (if s.regs.cx = 0 then jumpTo (relTarget s (sext16 v)) s else s)

/-- R635: CD INT Ib. -/
def execIntIb (v : Byte) (s : State) : Host.Outcome State Fault Refusal := .next (interruptCall v s)

/-- R636: CC INT3. -/
def execInt3 (s : State) : Host.Outcome State Fault Refusal := .next (interruptCall 3 s)

/-- R637: CE INTO. -/
def execInto (s : State) : Host.Outcome State Fault Refusal := .next (if s.flag .ovf then interruptCall 4 s else s)

/-- R638: CF IRET. -/
def execIret (s : State) : Host.Outcome State Fault Refusal := .next (iret s)

end Sys2Proof.Machine
end

