-- ==== Sys2Proof/Machine/Decimal.lean ====
section
/-! DEFINITION. AAA, AAS, DAA, DAS, AAM, AAD, CBW and CWD (spec/41_arithmetic.md rules R415 to R422). -/

namespace Sys2Proof.Machine

/-- R415, R416: whether AAA or AAS adjusts. -/
def asciiAdjusts (s : State) : Bool := decide (9 < (s.reg8 .al).toNat % 16) || s.flag .af

/-- R415, R416: AAA (`add` true) or AAS. AL and AH change separately: no carry from AL reaches AH. -/
def asciiAdjust (add : Bool) (s : State) : State :=
  let al := s.reg8 .al
  let ah := s.reg8 .ah
  let adj := asciiAdjusts s
  let al' := if adj then (if add then al + 6 else al - 6) else al
  let ah' := if adj then (if add then ah + 1 else ah - 1) else ah
  let t := (s.setReg8 .al (al' &&& 0x0F)).setReg8 .ah ah'
  ((t.setFlag .af adj).setFlag .cf adj).drawFlags [.ovf, .sf, .zf, .pf]

/-- R417, R418: whether the low digit is adjusted. -/
def lowAdjusts (s : State) : Bool := decide (9 < (s.reg8 .al).toNat % 16) || s.flag .af

/-- R417, R418: whether the high digit is adjusted. -/
def highAdjusts (s : State) : Bool := decide (0x99 < (s.reg8 .al).toNat) || s.flag .cf

/-- SF, ZF and PF of AL, and OF a draw. -/
def decimalFlags (al : Byte) (s : State) : State :=
  { s with flags := szp al s.flags }.drawFlags [.ovf]

/-- R417: DAA. -/
def daa (s : State) : State :=
  let a := s.reg8 .al
  let low := lowAdjusts s
  let high := highAdjusts s
  let al1 := if low then a + 6 else a
  let al2 := if high then al1 + 0x60 else al1
  decimalFlags al2 (((s.setReg8 .al al2).setFlag .cf high).setFlag .af low)

/-- R418: DAS; without the second adjustment CF keeps what the first test gave it. -/
def das (s : State) : State :=
  let a := s.reg8 .al
  let low := lowAdjusts s
  let high := highAdjusts s
  let cf1 := low && (s.flag .cf || decide (a.toNat < 6))
  let al1 := if low then a - 6 else a
  let al2 := if high then al1 - 0x60 else al1
  decimalFlags al2 (((s.setReg8 .al al2).setFlag .cf (high || cf1)).setFlag .af low)

/-- R419: AAM. -/
def aam (base : Byte) (s : State) : State :=
  if base = 0 then divideError (s.drawFlags statusFlags)
  else
    let t := (s.reg8 .al).toNat
    let al := BitVec.ofNat 8 (t % base.toNat)
    let u := (s.setReg8 .ah (BitVec.ofNat 8 (t / base.toNat))).setReg8 .al al
    { u with flags := szp al u.flags }.drawFlags [.ovf, .af, .cf]

/-- R420: AAD. -/
def aad (base : Byte) (s : State) : State :=
  let al := s.reg8 .al + s.reg8 .ah * base
  let u := (s.setReg8 .al al).setReg8 .ah 0
  { u with flags := szp al u.flags }.drawFlags [.ovf, .af, .cf]

/-- R415: 37 AAA. -/
def execAaa (s : State) : Host.Outcome State Fault Refusal := .next (asciiAdjust true s)

/-- R416: 3F AAS. -/
def execAas (s : State) : Host.Outcome State Fault Refusal := .next (asciiAdjust false s)

/-- R417: 27 DAA. -/
def execDaa (s : State) : Host.Outcome State Fault Refusal := .next (daa s)

/-- R418: 2F DAS. -/
def execDas (s : State) : Host.Outcome State Fault Refusal := .next (das s)

/-- R419: D4 AAM Ib. -/
def execAamIb (v : Byte) (s : State) : Host.Outcome State Fault Refusal := .next (aam v s)

/-- R420: D5 AAD Ib. -/
def execAadIb (v : Byte) (s : State) : Host.Outcome State Fault Refusal := .next (aad v s)

/-- R421: 98 CBW. -/
def execCbw (s : State) : Host.Outcome State Fault Refusal := .next (s.setReg16 .ax (sext16 (s.reg8 .al)))

/-- R422: 99 CWD. -/
def execCwd (s : State) : Host.Outcome State Fault Refusal :=
  .next (s.setReg16 .dx (if s.regs.ax.msb then 0xFFFF else 0))

end Sys2Proof.Machine
end

