-- ==== Sys2Proof/Machine/Logic.lean ====
section
/-! DEFINITION. AND, OR, XOR, TEST and NOT (spec/42_logic.md rules R501 to R505; NOT writes no flag, 90 C1). -/

namespace Sys2Proof.Machine

/-- R504: TEST on 8-bit operands; neither is written. -/
def test8 (a b : Operand8) (s : State) : State :=
  { s with flags := logicFlags (s.readOp8 a &&& s.readOp8 b) s.flags }

/-- R504: TEST on 16-bit operands; neither is written. -/
def test16 (a b : Operand16) (s : State) : State :=
  { s with flags := logicFlags (s.readOp16 a &&& s.readOp16 b) s.flags }

/-- R501: 20 AND Eb,Gb. -/
def execAndEbGb (e : RM8) (g : Reg8) (s : State) : Host.Outcome State Fault Refusal :=
  .next (alu8 .and (rm8 s e) (.reg g) s)

/-- R501: 21 AND Ev,Gv. -/
def execAndEvGv (e : RM16) (g : Reg16) (s : State) : Host.Outcome State Fault Refusal :=
  .next (alu16 .and (rm16 s e) (.reg g) s)

/-- R501: 22 AND Gb,Eb. -/
def execAndGbEb (e : RM8) (g : Reg8) (s : State) : Host.Outcome State Fault Refusal :=
  .next (alu8 .and (.reg g) (rm8 s e) s)

/-- R501: 23 AND Gv,Ev. -/
def execAndGvEv (e : RM16) (g : Reg16) (s : State) : Host.Outcome State Fault Refusal :=
  .next (alu16 .and (.reg g) (rm16 s e) s)

/-- R501: 24 AND AL,Ib. -/
def execAndAlIb (v : Byte) (s : State) : Host.Outcome State Fault Refusal := .next (alu8 .and (.reg .al) (.imm v) s)

/-- R501: 25 AND AX,Iv. -/
def execAndAxIv (v : Word) (s : State) : Host.Outcome State Fault Refusal := .next (alu16 .and (.reg .ax) (.imm v) s)

/-- R501: 80 /4 AND Eb,Ib. -/
def execAndEbIb (e : RM8) (v : Byte) (s : State) : Host.Outcome State Fault Refusal :=
  .next (alu8 .and (rm8 s e) (.imm v) s)

/-- R501: 82 /4 AND Eb,Ib. -/
def execAndEbIb82 (e : RM8) (v : Byte) (s : State) : Host.Outcome State Fault Refusal :=
  .next (alu8 .and (rm8 s e) (.imm v) s)

/-- R501: 81 /4 AND Ev,Iv. -/
def execAndEvIv (e : RM16) (v : Word) (s : State) : Host.Outcome State Fault Refusal :=
  .next (alu16 .and (rm16 s e) (.imm v) s)

/-- R501: 83 /4 AND Ev,Ib. -/
def execAndEvIb (e : RM16) (v : Byte) (s : State) : Host.Outcome State Fault Refusal :=
  .next (alu16 .and (rm16 s e) (.imm (sext16 v)) s)

/-- R502: 08 OR Eb,Gb. -/
def execOrEbGb (e : RM8) (g : Reg8) (s : State) : Host.Outcome State Fault Refusal :=
  .next (alu8 .or (rm8 s e) (.reg g) s)

/-- R502: 09 OR Ev,Gv. -/
def execOrEvGv (e : RM16) (g : Reg16) (s : State) : Host.Outcome State Fault Refusal :=
  .next (alu16 .or (rm16 s e) (.reg g) s)

/-- R502: 0A OR Gb,Eb. -/
def execOrGbEb (e : RM8) (g : Reg8) (s : State) : Host.Outcome State Fault Refusal :=
  .next (alu8 .or (.reg g) (rm8 s e) s)

/-- R502: 0B OR Gv,Ev. -/
def execOrGvEv (e : RM16) (g : Reg16) (s : State) : Host.Outcome State Fault Refusal :=
  .next (alu16 .or (.reg g) (rm16 s e) s)

/-- R502: 0C OR AL,Ib. -/
def execOrAlIb (v : Byte) (s : State) : Host.Outcome State Fault Refusal := .next (alu8 .or (.reg .al) (.imm v) s)

/-- R502: 0D OR AX,Iv. -/
def execOrAxIv (v : Word) (s : State) : Host.Outcome State Fault Refusal := .next (alu16 .or (.reg .ax) (.imm v) s)

/-- R502: 80 /1 OR Eb,Ib. -/
def execOrEbIb (e : RM8) (v : Byte) (s : State) : Host.Outcome State Fault Refusal :=
  .next (alu8 .or (rm8 s e) (.imm v) s)

/-- R502: 82 /1 OR Eb,Ib. -/
def execOrEbIb82 (e : RM8) (v : Byte) (s : State) : Host.Outcome State Fault Refusal :=
  .next (alu8 .or (rm8 s e) (.imm v) s)

/-- R502: 81 /1 OR Ev,Iv. -/
def execOrEvIv (e : RM16) (v : Word) (s : State) : Host.Outcome State Fault Refusal :=
  .next (alu16 .or (rm16 s e) (.imm v) s)

/-- R502: 83 /1 OR Ev,Ib. -/
def execOrEvIb (e : RM16) (v : Byte) (s : State) : Host.Outcome State Fault Refusal :=
  .next (alu16 .or (rm16 s e) (.imm (sext16 v)) s)

/-- R503: 30 XOR Eb,Gb. -/
def execXorEbGb (e : RM8) (g : Reg8) (s : State) : Host.Outcome State Fault Refusal :=
  .next (alu8 .xor (rm8 s e) (.reg g) s)

/-- R503: 31 XOR Ev,Gv. -/
def execXorEvGv (e : RM16) (g : Reg16) (s : State) : Host.Outcome State Fault Refusal :=
  .next (alu16 .xor (rm16 s e) (.reg g) s)

/-- R503: 32 XOR Gb,Eb. -/
def execXorGbEb (e : RM8) (g : Reg8) (s : State) : Host.Outcome State Fault Refusal :=
  .next (alu8 .xor (.reg g) (rm8 s e) s)

/-- R503: 33 XOR Gv,Ev. -/
def execXorGvEv (e : RM16) (g : Reg16) (s : State) : Host.Outcome State Fault Refusal :=
  .next (alu16 .xor (.reg g) (rm16 s e) s)

/-- R503: 34 XOR AL,Ib. -/
def execXorAlIb (v : Byte) (s : State) : Host.Outcome State Fault Refusal := .next (alu8 .xor (.reg .al) (.imm v) s)

/-- R503: 35 XOR AX,Iv. -/
def execXorAxIv (v : Word) (s : State) : Host.Outcome State Fault Refusal := .next (alu16 .xor (.reg .ax) (.imm v) s)

/-- R503: 80 /6 XOR Eb,Ib. -/
def execXorEbIb (e : RM8) (v : Byte) (s : State) : Host.Outcome State Fault Refusal :=
  .next (alu8 .xor (rm8 s e) (.imm v) s)

/-- R503: 82 /6 XOR Eb,Ib. -/
def execXorEbIb82 (e : RM8) (v : Byte) (s : State) : Host.Outcome State Fault Refusal :=
  .next (alu8 .xor (rm8 s e) (.imm v) s)

/-- R503: 81 /6 XOR Ev,Iv. -/
def execXorEvIv (e : RM16) (v : Word) (s : State) : Host.Outcome State Fault Refusal :=
  .next (alu16 .xor (rm16 s e) (.imm v) s)

/-- R503: 83 /6 XOR Ev,Ib. -/
def execXorEvIb (e : RM16) (v : Byte) (s : State) : Host.Outcome State Fault Refusal :=
  .next (alu16 .xor (rm16 s e) (.imm (sext16 v)) s)

/-- R504: 84 TEST Eb,Gb. -/
def execTestEbGb (e : RM8) (g : Reg8) (s : State) : Host.Outcome State Fault Refusal :=
  .next (test8 (rm8 s e) (.reg g) s)

/-- R504: 85 TEST Ev,Gv. -/
def execTestEvGv (e : RM16) (g : Reg16) (s : State) : Host.Outcome State Fault Refusal :=
  .next (test16 (rm16 s e) (.reg g) s)

/-- R504: A8 TEST AL,Ib. -/
def execTestAlIb (v : Byte) (s : State) : Host.Outcome State Fault Refusal := .next (test8 (.reg .al) (.imm v) s)

/-- R504: A9 TEST AX,Iv. -/
def execTestAxIv (v : Word) (s : State) : Host.Outcome State Fault Refusal := .next (test16 (.reg .ax) (.imm v) s)

/-- R504: F6 /0 TEST Eb,Ib. -/
def execTestEbIb (e : RM8) (v : Byte) (s : State) : Host.Outcome State Fault Refusal :=
  .next (test8 (rm8 s e) (.imm v) s)

/-- R504: F7 /0 TEST Ev,Iv. -/
def execTestEvIv (e : RM16) (v : Word) (s : State) : Host.Outcome State Fault Refusal :=
  .next (test16 (rm16 s e) (.imm v) s)

/-- R505: F6 /2 NOT Eb. -/
def execNotEb (e : RM8) (s : State) : Host.Outcome State Fault Refusal :=
  .next (s.writeOp8 (~~~ s.readOp8 (rm8 s e)) (rm8 s e))

/-- R505: F7 /2 NOT Ev. -/
def execNotEv (e : RM16) (s : State) : Host.Outcome State Fault Refusal :=
  .next (s.writeOp16 (~~~ s.readOp16 (rm16 s e)) (rm16 s e))

end Sys2Proof.Machine
end

