-- ==== Sys2Proof/Machine/MulDiv.lean ====
section
/-! DEFINITION. MUL, IMUL, DIV and IDIV (spec/41_arithmetic.md rules R411 to R414). -/

namespace Sys2Proof.Machine

/-- R411, R412: CF and OF, and the draws, after a multiplication. -/
def mulFlags (significant : Bool) (s : State) : State :=
  ((s.setFlag .cf significant).setFlag .ovf significant).drawFlags [.sf, .zf, .af, .pf]

/-- R411: MUL of AL. -/
def mul8 (v : Byte) (s : State) : State :=
  let p := (s.reg8 .al).toNat * v.toNat
  mulFlags (decide (p / 256 ≠ 0)) (s.setReg16 .ax (BitVec.ofNat 16 p))

/-- R411: MUL of AX. -/
def mul16 (v : Word) (s : State) : State :=
  let p := s.regs.ax.toNat * v.toNat
  mulFlags (decide (p / 65536 ≠ 0))
    ((s.setReg16 .ax (BitVec.ofNat 16 p)).setReg16 .dx (BitVec.ofNat 16 (p / 65536)))

/-- R412: IMUL of AL. -/
def imul8 (v : Byte) (s : State) : State :=
  let p := (s.reg8 .al).toInt * v.toInt
  mulFlags (!decide (-128 ≤ p ∧ p ≤ 127)) (s.setReg16 .ax (BitVec.ofInt 16 p))

/-- R412: IMUL of AX. -/
def imul16 (v : Word) (s : State) : State :=
  let p := s.regs.ax.toInt * v.toInt
  mulFlags (!decide (-32768 ≤ p ∧ p ≤ 32767))
    ((s.setReg16 .ax (BitVec.ofInt 16 p)).setReg16 .dx ((BitVec.ofInt 32 p).extractLsb' 16 16))

/-- R413: DIV of AX by a byte. -/
def div8 (v : Byte) (s : State) : State :=
  let n := s.regs.ax.toNat
  let t := s.drawFlags statusFlags
  if v = 0 ∨ 255 < n / v.toNat then divideError t
  else (t.setReg8 .al (BitVec.ofNat 8 (n / v.toNat))).setReg8 .ah (BitVec.ofNat 8 (n % v.toNat))

/-- R413: DIV of DX:AX by a word. -/
def div16 (v : Word) (s : State) : State :=
  let n := s.regs.dx.toNat * 65536 + s.regs.ax.toNat
  let t := s.drawFlags statusFlags
  if v = 0 ∨ 65535 < n / v.toNat then divideError t
  else (t.setReg16 .ax (BitVec.ofNat 16 (n / v.toNat))).setReg16 .dx (BitVec.ofNat 16 (n % v.toNat))

/-- R414: the lowest quotient IDIV stores (D25). -/
def idivLow (s : State) (w : Nat) : Int :=
  if s.params.idivMinQuotientFaults then -(2 ^ (w - 1)) + 1 else -(2 ^ (w - 1))

/-- R414: IDIV of AX by a byte; the quotient is truncated toward zero. -/
def idiv8 (v : Byte) (s : State) : State :=
  let n := s.regs.ax.toInt
  let q := n.tdiv v.toInt
  let t := s.drawFlags statusFlags
  if v = 0 ∨ 127 < q ∨ q < idivLow s 8 then divideError t
  else (t.setReg8 .al (BitVec.ofInt 8 q)).setReg8 .ah (BitVec.ofInt 8 (n.tmod v.toInt))

/-- R414: IDIV of DX:AX by a word; the quotient is truncated toward zero. -/
def idiv16 (v : Word) (s : State) : State :=
  let n := (s.regs.dx ++ s.regs.ax).toInt
  let q := n.tdiv v.toInt
  let t := s.drawFlags statusFlags
  if v = 0 ∨ 32767 < q ∨ q < idivLow s 16 then divideError t
  else (t.setReg16 .ax (BitVec.ofInt 16 q)).setReg16 .dx (BitVec.ofInt 16 (n.tmod v.toInt))

/-- R411: F6 /4 MUL Eb. -/
def execMulEb (e : RM8) (s : State) : Host.Outcome State Fault Refusal := .next (mul8 (s.readOp8 (rm8 s e)) s)

/-- R411: F7 /4 MUL Ev. -/
def execMulEv (e : RM16) (s : State) : Host.Outcome State Fault Refusal := .next (mul16 (s.readOp16 (rm16 s e)) s)

/-- R412: F6 /5 IMUL Eb. -/
def execImulEb (e : RM8) (s : State) : Host.Outcome State Fault Refusal := .next (imul8 (s.readOp8 (rm8 s e)) s)

/-- R412: F7 /5 IMUL Ev. -/
def execImulEv (e : RM16) (s : State) : Host.Outcome State Fault Refusal := .next (imul16 (s.readOp16 (rm16 s e)) s)

/-- R413: F6 /6 DIV Eb. -/
def execDivEb (e : RM8) (s : State) : Host.Outcome State Fault Refusal := .next (div8 (s.readOp8 (rm8 s e)) s)

/-- R413: F7 /6 DIV Ev. -/
def execDivEv (e : RM16) (s : State) : Host.Outcome State Fault Refusal := .next (div16 (s.readOp16 (rm16 s e)) s)

/-- R414: F6 /7 IDIV Eb. -/
def execIdivEb (e : RM8) (s : State) : Host.Outcome State Fault Refusal := .next (idiv8 (s.readOp8 (rm8 s e)) s)

/-- R414: F7 /7 IDIV Ev. -/
def execIdivEv (e : RM16) (s : State) : Host.Outcome State Fault Refusal := .next (idiv16 (s.readOp16 (rm16 s e)) s)

end Sys2Proof.Machine
end

