-- ==== Sys2Proof/Machine/Pit.lean ====
section
/-! DEFINITION. The PIT counter bank (spec/60_exceptions.md rules R815 to R828). -/

namespace Sys2Proof.Machine

/-- R817: the `RW` field of a control word selects the access mode. -/
def Access.ofRw (rw : Nat) : Access :=
  match rw with
  | 1 => .lsb
  | 2 => .msb
  | _ => .lsbMsb

/-- R822: activation. -/
def Channel.activate (c : Channel) : Channel :=
  let r := if c.count = 0 then 65536 else c.count.toNat
  { c with reload := r, ce := r, active := true }

/-- R821: a data-port write. -/
def Channel.writeData (c : Channel) (v : Byte) : Channel :=
  match c.access with
  | .lsb => { c with count := mkWord 0 v }.activate
  | .msb => { c with count := mkWord v 0 }.activate
  | .lsbMsb =>
    if c.wtoggle then { c with count := mkWord v c.wlow, wtoggle := false }.activate
    else { c with wlow := v, wtoggle := true }

/-- R818: the latch command; ignored while a latched value waits to be read. -/
def Channel.latchCommand (c : Channel) : Channel :=
  if c.latched then c else { c with latch := BitVec.ofNat 16 c.ce, latched := true }

/-- R819: reprogramming by the fields RW, M and BCD of a control word. -/
def Channel.reprogram (c : Channel) (access : Access) (mode : BitVec 3) (bcd : Bool) : Channel :=
  { c with
    access := access, mode := mode, bcd := bcd, active := false, latched := false, wtoggle := false, rtoggle := false }

/-- R823: the 16-bit value a data-port read takes its byte from. -/
def Channel.value (c : Channel) : Word := if c.latched then c.latch else BitVec.ofNat 16 c.ce

/-- R823: the byte a data-port read returns. -/
def Channel.readByte (c : Channel) : Byte :=
  match c.access with
  | .lsb => loByte c.value
  | .msb => hiByte c.value
  | .lsbMsb => if c.rtoggle then hiByte c.value else loByte c.value

/-- R823: the channel after a data-port read. -/
def Channel.afterRead (c : Channel) : Channel :=
  match c.access with
  | .lsb | .msb => { c with latched := false }
  | .lsbMsb => if c.rtoggle then { c with rtoggle := false, latched := false } else { c with rtoggle := true }

/-- R824: whether `n` cycles bring an active channel to zero. -/
def Channel.fires (c : Channel) (n : Nat) : Bool := c.active && decide (c.ce ≤ n)

/-- R824: `n` cycles of one channel. -/
def Channel.runCycles (c : Channel) (n : Nat) : Channel :=
  if c.active then
    if n < c.ce then { c with ce := c.ce - n } else { c with ce := c.reload - (n - c.ce) % c.reload }
  else c

/-- R816: the channel of a register number 0, 1 or 2. -/
def Pit.channel (p : Pit) (i : Nat) : Channel :=
  match i with
  | 0 => p.c0
  | 1 => p.c1
  | _ => p.c2

def Pit.setChannel (p : Pit) (i : Nat) (c : Channel) : Pit :=
  match i with
  | 0 => { p with c0 := c }
  | 1 => { p with c1 := c }
  | _ => { p with c2 := c }

/-- R817 to R820: a control-word write. -/
def Pit.control (p : Pit) (v : Byte) : Pit :=
  let sc := v.toNat / 64
  let rw := v.toNat / 16 % 4
  if sc = 3 then p
  else if rw = 0 then p.setChannel sc (p.channel sc).latchCommand
  else p.setChannel sc ((p.channel sc).reprogram (Access.ofRw rw) (v.extractLsb' 1 3) (v.getLsbD 0))

/-- R816: a write to register `i` (0 to 2 data, 3 control). -/
def Pit.write (p : Pit) (i : Nat) (v : Byte) : Pit :=
  if i = 3 then p.control v else p.setChannel i ((p.channel i).writeData v)

/-- R816, R823: the byte a read of register `i` returns; the control port reads 0x00. -/
def Pit.readByte (p : Pit) (i : Nat) : Byte := if i = 3 then 0 else (p.channel i).readByte

/-- R816, R823: the PIT after a read of register `i`. -/
def Pit.afterRead (p : Pit) (i : Nat) : Pit := if i = 3 then p else p.setChannel i (p.channel i).afterRead

/-- R824: `run_cycles(n)` on the three channels. -/
def Pit.runCycles (p : Pit) (n : Nat) : Pit :=
  { c0 := p.c0.runCycles n, c1 := p.c1.runCycles n, c2 := p.c2.runCycles n }

/-- R824, R825: `run_cycles(n)` of the machine; channel 0 reaching zero raises INTR with vector 8, once. -/
def runPit (n : Nat) (s : State) : State :=
  let t := { s with pit := s.pit.runCycles n }
  if s.pit.c0.fires n then raiseIntr 8 t else t

/-- R826: `next_cycles()`; `none` is the sentinel `never`. -/
def Pit.nextCycles (p : Pit) : Option Nat := if p.c0.active then some p.c0.ce else none

/-- R827: `frequency()` of the PIT. -/
def pitFrequency (s : State) : Nat := s.params.pitFrequency

end Sys2Proof.Machine
end

