-- ==== Sys2Proof/Machine/PortSpace.lean ====
section
/-! DEFINITION. The IO space (spec/20_memory.md rules R160 to R165): routing of 8-bit port accesses. -/

namespace Sys2Proof.Machine

/-- R163: who owns a port. -/
inductive PortOwner where
  | pit
  | external
  | nobody
  deriving DecidableEq, Repr

/-- R163: the routing table. -/
def portOwner (port : Word) : PortOwner :=
  let p := port.toNat
  if 0x40 ≤ p ∧ p ≤ 0x5F then .pit
  else if (0x60 ≤ p ∧ p ≤ 0x64) ∨ (0x3C0 ≤ p ∧ p ≤ 0x3DF) then .external
  else .nobody

/-- R816: the PIT register of a port. -/
def pitRegister (port : Word) : Nat := (port.toNat - 0x40) % 4

/-- `IORead(port)`: the byte. -/
def ioReadByte (port : Word) (s : State) : Byte :=
  match portOwner port with
  | .pit => s.pit.readByte (pitRegister port)
  | .external => Config.extIo s.draws port
  | .nobody => 0

/-- `IORead(port)`: the state after it (R165: a PIT read has side effects; an external read uses up a draw). -/
def ioReadState (port : Word) (s : State) : State :=
  match portOwner port with
  | .pit => { s with pit := s.pit.afterRead (pitRegister port) }
  | .external => { s with draws := s.draws + 1 }
  | .nobody => s

/-- `IOWrite(port, v)`: the PIT takes it; external devices absorb it (R164), other ports ignore it (R163). -/
def ioWrite (port : Word) (v : Byte) (s : State) : State :=
  match portOwner port with
  | .pit => { s with pit := s.pit.write (pitRegister port) v }
  | .external => s
  | .nobody => s

end Sys2Proof.Machine
end

