-- ==== Sys2Proof/Machine/PortIo.lean ====
section
/-! DEFINITION. IN and OUT (spec/40_data_transfer.md rules R316 to R319). -/

namespace Sys2Proof.Machine

/-- R316, R317: IN AL. -/
def inAl (port : Word) (s : State) : State := (ioReadState port s).setReg8 .al (ioReadByte port s)

/-- R316, R317, R162: IN AX: the low byte at `port`, then the high byte at the next port. -/
def inAx (port : Word) (s : State) : State :=
  let t := inAl port s
  (ioReadState (port + 1) t).setReg8 .ah (ioReadByte (port + 1) t)

/-- R318, R319: OUT of AL. -/
def outAl (port : Word) (s : State) : State := ioWrite port (s.reg8 .al) s

/-- R318, R319, R162: OUT of AX: AL to `port`, then AH to the next port. -/
def outAx (port : Word) (s : State) : State := ioWrite (port + 1) (s.reg8 .ah) (ioWrite port (s.reg8 .al) s)

/-- R316: E4 IN AL,Ib. -/
def execInAlIb (v : Byte) (s : State) : Host.Outcome State Fault Refusal := .next (inAl (zext16 v) s)

/-- R316: E5 IN AX,Ib. -/
def execInAxIb (v : Byte) (s : State) : Host.Outcome State Fault Refusal := .next (inAx (zext16 v) s)

/-- R317: EC IN AL,DX. -/
def execInAlDx (s : State) : Host.Outcome State Fault Refusal := .next (inAl s.regs.dx s)

/-- R317: ED IN AX,DX. -/
def execInAxDx (s : State) : Host.Outcome State Fault Refusal := .next (inAx s.regs.dx s)

/-- R318: E6 OUT Ib,AL. -/
def execOutIbAl (v : Byte) (s : State) : Host.Outcome State Fault Refusal := .next (outAl (zext16 v) s)

/-- R318: E7 OUT Ib,AX. -/
def execOutIbAx (v : Byte) (s : State) : Host.Outcome State Fault Refusal := .next (outAx (zext16 v) s)

/-- R319: EE OUT DX,AL. -/
def execOutDxAl (s : State) : Host.Outcome State Fault Refusal := .next (outAl s.regs.dx s)

/-- R319: EF OUT DX,AX. -/
def execOutDxAx (s : State) : Host.Outcome State Fault Refusal := .next (outAx s.regs.dx s)

end Sys2Proof.Machine
end

