-- ==== Sys2Proof/Machine/Mcb.lean ====
section
/-! DEFINITION. The DOS MCB allocator (spec/49_mcb_allocator.md rules R750 to R768) on the machine's memory. Segments are
unbounded integers here (R752), checked against 0xFFFF where the rules check them. -/

namespace Sys2Proof.Machine

/-- R751: `'M'`, more blocks follow. -/
def sigMore : Byte := 0x4D

/-- R751: `'Z'`, the last block. -/
def sigLast : Byte := 0x5A

/-- R750: the physical address of byte `k` of the header at segment `h`. -/
def mcbAddr (h k : Nat) : Nat := (16 * h + k) % Config.memSize

/-- R750: `sig(h)`. -/
def mcbSig (s : State) (h : Nat) : Byte := s.memRead8 (mcbAddr h 0)

/-- R750: `owner(h)`. -/
def mcbOwner (s : State) (h : Nat) : Word := s.memRead16 (mcbAddr h 1)

/-- R750: `size(h)`. -/
def mcbSize (s : State) (h : Nat) : Nat := (s.memRead16 (mcbAddr h 3)).toNat

def setMcbSig (s : State) (h : Nat) (v : Byte) : State := s.memWrite8 (mcbAddr h 0) v

def setMcbOwner (s : State) (h : Nat) (v : Word) : State := s.memWrite16 (mcbAddr h 1) v

def setMcbSize (s : State) (h n : Nat) : State := s.memWrite16 (mcbAddr h 3) (BitVec.ofNat 16 n)

/-- A header written whole. -/
def setMcb (s : State) (h : Nat) (sig : Byte) (owner : Word) (size : Nat) : State :=
  setMcbSize (setMcbOwner (setMcbSig s h sig) h owner) h size

/-- R751: the signature byte of `h` is valid. -/
def mcbValid (s : State) (h : Nat) : Bool := mcbSig s h == sigMore || mcbSig s h == sigLast

/-- R752: `next(h)`. -/
def mcbNext (s : State) (h : Nat) : Nat := h + 1 + mcbSize s h

/-- More headers than a chain can have: each is at a higher segment, at most 0xFFFF. -/
def mcbFuel : Nat := 65536

/-- R755 from header `h` on: the header at which the chain is corrupt, or `none` for `Ok`. -/
def validateFrom : Nat → State → Nat → Option Nat
  | 0, _, h => some h
  | fuel + 1, s, h =>
    if mcbValid s h = false then some h
    else if mcbSig s h = sigLast then none
    else if 0xFFFF < mcbNext s h then some h
    else validateFrom fuel s (mcbNext s h)

/-- R755: Validate. -/
def mcbValidate (s : State) : Option Nat := validateFrom mcbFuel s s.params.mcbBase.toNat

/-- R756: Coalesce from header `h`: the state it leaves, and the header it finds corrupt if any. -/
def coalesce : Nat → State → Nat → State × Option Nat
  | 0, s, h => (s, some h)
  | fuel + 1, s, h =>
    if mcbSig s h = sigLast then (s, none)
    else
      let n := mcbNext s h
      if 0xFFFF < n ∨ mcbValid s n = false then (s, some h)
      else if mcbOwner s n ≠ 0 then (s, none)
      else
        let t := mcbSize s h + mcbSize s n + 1
        if 0xFFFF < t then (s, some h)
        else coalesce fuel (setMcbSig (setMcbSize s h t) h (mcbSig s n)) h

/-- R758 to R760: the block chosen so far after a free block `h` of coalesced size at least the request. -/
def choose (strategy : Strategy) (s : State) (chosen : Option Nat) (h : Nat) : Option Nat :=
  match strategy, chosen with
  | .firstFit, none => some h
  | .firstFit, some c => some c
  | .bestFit, none => some h
  | .bestFit, some c => if mcbSize s h < mcbSize s c then some h else some c
  | .lastFit, _ => some h

/-- What the walk of R757 found. -/
inductive WalkResult where
  | corrupt (h : Nat)
  | done (chosen : Option Nat) (largest : Nat)
  deriving DecidableEq, Repr

/-- R757: the walk of Allocate from header `h` on. -/
def allocWalk : Nat → Strategy → Nat → State → Nat → Option Nat → Nat → State × WalkResult
  | 0, _, _, s, h, _, _ => (s, .corrupt h)
  | fuel + 1, strategy, r, s, h, chosen, largest =>
    if mcbValid s h = false then (s, .corrupt h)
    else
      let free := mcbOwner s h = 0
      let c := if free then coalesce mcbFuel s h else (s, none)
      let s := c.1
      match c.2 with
      | some x => (s, .corrupt x)
      | none =>
        let chosen := if free ∧ r ≤ mcbSize s h then choose strategy s chosen h else chosen
        let largest := if free then max largest (mcbSize s h) else largest
        if mcbSig s h = sigLast then (s, .done chosen largest)
        else if 0xFFFF < mcbNext s h then (s, .corrupt h)
        else allocWalk fuel strategy r s (mcbNext s h) chosen largest

/-- R761: the front split: the state and the data segment. -/
def splitFront (s : State) (h r : Nat) (pid : Word) : State × Nat :=
  let size := mcbSize s h
  let sig := mcbSig s h
  let t := if r < size then
      setMcbSize (setMcbSig (setMcb s (h + 1 + r) sig 0 (size - r - 1)) h sigMore) h r
    else s
  (setMcbOwner t h pid, h + 1)

/-- R762: the tail split: the state and the data segment. -/
def splitTail (s : State) (h r : Nat) (pid : Word) : State × Nat :=
  let size := mcbSize s h
  let sig := mcbSig s h
  if r < size then
    let n := h + size - r
    (setMcbSize (setMcbSig (setMcb s n sig pid r) h sigMore) h (size - r - 1), n + 1)
  else (setMcbOwner s h pid, h + 1)

/-- R761, R762: Split. -/
def split (strategy : Strategy) (s : State) (h r : Nat) (pid : Word) : State × Nat :=
  match strategy with
  | .firstFit | .bestFit => splitFront s h r pid
  | .lastFit => splitTail s h r pid

/-- R766: an operation that would answer `Ok(seg)` first validates the chain. -/
def okAfterValidate (s : State) (seg : Nat) : State × McbResult :=
  match mcbValidate s with
  | some x => (s, .corrupt x)
  | none => (s, .ok seg)

/-- R757: Allocate. -/
def mcbAllocate (s : State) (r : Word) (strategy : Strategy) (pid : Word) : State × McbResult :=
  if pid = 0 then (s, .refused)
  else
    let w := allocWalk mcbFuel strategy r.toNat s s.params.mcbBase.toNat none 0
    match w.2 with
    | .corrupt h => (w.1, .corrupt h)
    | .done none largest => (w.1, .outOfMemory largest)
    | .done (some h) _ =>
      let t := split strategy w.1 h r.toNat pid
      okAfterValidate t.1 t.2

/-- R764, R765: the header of the data segment `seg`; segment 0 has its header at 0xFFFF (notes/assumptions/9.md). -/
def headerOf (seg : Word) : Nat := (seg - 1).toNat

/-- R764: Free. -/
def mcbFree (s : State) (seg : Word) : State × McbResult :=
  let h := headerOf seg
  if mcbValid s h = false then (s, .corrupt h)
  else okAfterValidate (setMcbOwner s h 0) seg.toNat

/-- R765: Reallocate. -/
def mcbReallocate (s : State) (seg m : Word) : State × McbResult :=
  let h := headerOf seg
  if mcbValid s h = false then (s, .corrupt h)
  else
    let c := coalesce mcbFuel s h
    let s := c.1
    match c.2 with
    | some x => (s, .corrupt x)
    | none =>
      let size := mcbSize s h
      let m := m.toNat
      if size < m then (s, .tooSmall size)
      else
        let t := if m < size then
            setMcbSize (setMcbSig (setMcb s (h + 1 + m) (mcbSig s h) 0 (size - m - 1)) h sigMore) h m
          else s
        okAfterValidate t seg.toNat

/-- R754: the boot chain, one free block. -/
def mcbBoot (s : State) : State :=
  let b := s.params.mcbBase.toNat
  setMcb s b sigLast 0 (s.params.mcbTop.toNat - b - 1)

/-- R767, R768: the answer is kept for the host; `Corrupt` ends the machine. -/
def withMcbResult (x : State × McbResult) : State :=
  match x.2 with
  | .corrupt h => { x.1 with mcbResult := some (.corrupt h), status := .fault (.mcbCorrupt h) }
  | r => { x.1 with mcbResult := some r }

/-- R756: Coalesce called by the host. The rule gives it on a header with a valid signature; any other is corruption
(R751; notes/assumptions/18.md). -/
def mcbCoalesce (s : State) (h : Word) : State × Option McbResult :=
  if mcbValid s h.toNat = false then (s, some (.corrupt h.toNat))
  else
    let c := coalesce mcbFuel s h.toNat
    (c.1, c.2.map .corrupt)

/-- R767: an operation that may end without a result (R754, R756), which then leaves no answer. -/
def withMcbAnswer (x : State × Option McbResult) : State :=
  match x.2 with
  | some r => withMcbResult (x.1, r)
  | none => { x.1 with mcbResult := none }

/-- R754 to R765, R769: an allocator operation called by the host. -/
def runMcb (op : McbOp) (s : State) : State :=
  match op with
  | .boot => withMcbAnswer (mcbBoot s, none)
  | .coalesce h => withMcbAnswer (mcbCoalesce s h)
  | .validate => withMcbResult (s, match mcbValidate s with | some x => .corrupt x | none => .valid)
  | .allocate r strategy pid => withMcbResult (mcbAllocate s r strategy pid)
  | .free seg => withMcbResult (mcbFree s seg)
  | .reallocate seg m => withMcbResult (mcbReallocate s seg m)

end Sys2Proof.Machine
end

