-- ==== Sys2Proof/Machine/HostSide.lean ====
section
/-! DEFINITION. The host side: the actions of spec/60_exceptions.md rule R831, and the callback handlers of rule R832. -/

namespace Sys2Proof.Machine

/-- R712: the 4-byte callback stub `FE F8 id_lo id_hi`. -/
def callbackStub (id : Word) : List Byte := [0xFE, 0xF8, loByte id, hiByte id]

/-- Bytes written at `seg:off`, `seg:off+1`, … -/
def State.writeBytes (s : State) (seg off : Word) : List Byte → State
  | [] => s
  | b :: bs => (s.segWrite8 seg off b).writeBytes seg (off + 1) bs

/-- R10: the handler of a callback id. -/
def Registry.find (r : Registry) (id : Word) : Option Nat :=
  match r with
  | [] => none
  | (i, h) :: rest => if i = id then some h else Registry.find rest id

/-- R10, R831: the registry with the entry `id ↦ handler`, ids rising. -/
def Registry.put (r : Registry) (id : Word) (handler : Nat) : Registry :=
  match r with
  | [] => [(id, handler)]
  | (i, h) :: rest =>
    if id.toNat < i.toNat then (id, handler) :: (i, h) :: rest
    else if i = id then (id, handler) :: rest
    else (i, h) :: Registry.put rest id handler

/-- R831: one host action. -/
def hostAct (a : HostAction) (s : State) : State :=
  match a with
  | .writeMem seg off v => s.segWrite8 seg off v
  | .readMem _ _ => s
  | .writeReg r v => s.setReg16 r v
  | .writeSeg r v => s.setSreg r v
  | .writeIp v => { s with ip := v }
  | .writeFlags v => { s with flags := v }
  | .readRegs => s
  | .raiseNmi => { s with nmiPending := true }
  | .raiseIntr v => raiseIntr v s
  | .runPit n => runPit n s
  | .ioRead port => ioReadState port s
  | .ioWrite port v => ioWrite port v s
  | .mcb op => runMcb op s
  | .installCallback id off handler =>
    let t := s.writeBytes s.params.callbackSegment off (callbackStub id)
    { t with registry := t.registry.put id handler }
  | .installVector v off seg => (s.memWrite16 (4 * v.toNat) off).memWrite16 (4 * v.toNat + 2) seg
  | .pause => s
  | .resume => s
  | .exit code => { s with status := .exited code }
  | .refuse reason => { s with status := .fault (.hostRefused reason) }

/-- Host actions in order, while the machine runs (R75: an exit or a fault ends it). -/
def hostActs : List HostAction → State → State
  | [], s => s
  | a :: as, s => if s.status = .running then hostActs as (hostAct a s) else s

/-- R832, D45: what handler number `handler` does on a machine state, at draw number `draw`. It has no body: the handler
is the host's, any actions of rule R831. -/
opaque callbackHandler (handler draw : Nat) (s : State) : List HostAction

/-- R832: the handler runs inside the step. -/
def runHandler (handler : Nat) (s : State) : State :=
  hostActs (callbackHandler handler s.draws s) { s with draws := s.draws + 1 }

end Sys2Proof.Machine
end

