-- ==== Sys2Proof/Machine/Processor.lean ====
section
/-! DEFINITION. Flag control, HLT, WAIT, ESC, the prefixes, CALLBACK and the undefined encodings
(spec/45_processor_control.md). -/

namespace Sys2Proof.Machine

/-- R202: a prefix recorded: its byte, and its effect on the decode-transient state. -/
def recordPrefix (b : Byte) (f : Transient → Transient) (s : State) : State :=
  { s with tr := { f s.tr with prefixBytes := s.tr.prefixBytes ++ [b] } }

/-- R201: a segment override; the later one wins. -/
def overrideSeg (b : Byte) (i : SegReg) (s : State) : State := recordPrefix b (fun t => { t with segOvr := some i }) s

/-- R201: a repeat prefix; the later one wins. -/
def repeatMode (b : Byte) (r : Rep) (s : State) : State := recordPrefix b (fun t => { t with rep := some r }) s

/-- R712: CALLBACK; an id with no registry entry ends the machine before anything executes (R808). -/
def callback (id : Word) (s : State) : State :=
  match s.registry.find id with
  | none => faultAtStart (.unknownCallback id) s
  | some h => runHandler h s

/-- R713: an undefined encoding ends the machine; the bytes are those fetched so far. -/
def undefinedOp (op : Byte) (m : Option Byte) (s : State) : State :=
  faultAtStart (.undefinedOpcode (s.tr.prefixBytes ++ op :: m.toList) s.segs.cs s.tr.startIp) s

/-- R700: F8 CLC. -/
def execClc (s : State) : Host.Outcome State Fault Refusal := .next (s.setFlag .cf false)

/-- R701: F9 STC. -/
def execStc (s : State) : Host.Outcome State Fault Refusal := .next (s.setFlag .cf true)

/-- R702: F5 CMC. -/
def execCmc (s : State) : Host.Outcome State Fault Refusal := .next (s.setFlag .cf (!s.flag .cf))

/-- R703: FC CLD. -/
def execCld (s : State) : Host.Outcome State Fault Refusal := .next (s.setFlag .df false)

/-- R704: FD STD. -/
def execStd (s : State) : Host.Outcome State Fault Refusal := .next (s.setFlag .df true)

/-- R705: FA CLI. -/
def execCli (s : State) : Host.Outcome State Fault Refusal := .next (s.setFlag .ie false)

/-- R706: FB STI. -/
def execSti (s : State) : Host.Outcome State Fault Refusal := .next { s.setFlag .ie true with intDelay := true }

/-- R707: F4 HLT. -/
def execHlt (s : State) : Host.Outcome State Fault Refusal := .next { s with halted := true }

/-- R708: 9B WAIT. -/
def execWait (s : State) : Host.Outcome State Fault Refusal := .next s

/-- R709: D8 ESC 0,Ev. -/
def execEsc0Ev (_e : RM16) (_x : BitVec 3) (s : State) : Host.Outcome State Fault Refusal := .next s

/-- R709: D9 ESC 1,Ev. -/
def execEsc1Ev (_e : RM16) (_x : BitVec 3) (s : State) : Host.Outcome State Fault Refusal := .next s

/-- R709: DA ESC 2,Ev. -/
def execEsc2Ev (_e : RM16) (_x : BitVec 3) (s : State) : Host.Outcome State Fault Refusal := .next s

/-- R709: DB ESC 3,Ev. -/
def execEsc3Ev (_e : RM16) (_x : BitVec 3) (s : State) : Host.Outcome State Fault Refusal := .next s

/-- R709: DC ESC 4,Ev. -/
def execEsc4Ev (_e : RM16) (_x : BitVec 3) (s : State) : Host.Outcome State Fault Refusal := .next s

/-- R709: DD ESC 5,Ev. -/
def execEsc5Ev (_e : RM16) (_x : BitVec 3) (s : State) : Host.Outcome State Fault Refusal := .next s

/-- R709: DE ESC 6,Ev. -/
def execEsc6Ev (_e : RM16) (_x : BitVec 3) (s : State) : Host.Outcome State Fault Refusal := .next s

/-- R709: DF ESC 7,Ev. -/
def execEsc7Ev (_e : RM16) (_x : BitVec 3) (s : State) : Host.Outcome State Fault Refusal := .next s

/-- R711: 26 ES: (segment override prefix). -/
def execSegEs (s : State) : Host.Outcome State Fault Refusal := .next (overrideSeg 0x26 .es s)

/-- R711: 2E CS: (segment override prefix). -/
def execSegCs (s : State) : Host.Outcome State Fault Refusal := .next (overrideSeg 0x2E .cs s)

/-- R711: 36 SS: (segment override prefix). -/
def execSegSs (s : State) : Host.Outcome State Fault Refusal := .next (overrideSeg 0x36 .ss s)

/-- R711: 3E DS: (segment override prefix). -/
def execSegDs (s : State) : Host.Outcome State Fault Refusal := .next (overrideSeg 0x3E .ds s)

/-- R710: F0 LOCK (prefix). -/
def execLock (s : State) : Host.Outcome State Fault Refusal :=
  .next (recordPrefix 0xF0 (fun t => { t with lock := true }) s)

/-- R711: F2 REPNE (prefix). -/
def execRepne (s : State) : Host.Outcome State Fault Refusal := .next (repeatMode 0xF2 .repne s)

/-- R711: F3 REP (prefix). -/
def execRep (s : State) : Host.Outcome State Fault Refusal := .next (repeatMode 0xF3 .rep s)

/-- R712: FE /7 CALLBACK Iw. -/
def execCallbackIw (_rm : BitVec 3) (id : Word) (s : State) : Host.Outcome State Fault Refusal :=
  .next (callback id s)

/-- R713: the encodings of R218. -/
def execUd (op : Byte) (m : Option Byte) (s : State) : Host.Outcome State Fault Refusal := .next (undefinedOp op m s)

end Sys2Proof.Machine
end

