-- ==== Sys2Proof/Machine/Shift.lean ====
section
/-! DEFINITION. ROL, ROR, RCL, RCR, SHL, SHR and SAR (spec/42_logic.md rules R506 to R513). -/

namespace Sys2Proof.Machine

/-- R506: a shift or rotate of an 8-bit operand by `k`. -/
def shift8 (op : ShiftOp) (k : Nat) (dst : Operand8) (s : State) : State :=
  let v0 := s.readOp8 dst
  let x := op.run k v0 (s.flag .cf)
  if k = 0 then s
  else
    { s with
      flags := op.flagsAfter k v0 x.1 x.2 (drawnFlag s.draws) s.flags
      draws := s.draws + 1 }.writeOp8 x.1 dst

/-- R506: a shift or rotate of a 16-bit operand by `k`. -/
def shift16 (op : ShiftOp) (k : Nat) (dst : Operand16) (s : State) : State :=
  let v0 := s.readOp16 dst
  let x := op.run k v0 (s.flag .cf)
  if k = 0 then s
  else
    { s with
      flags := op.flagsAfter k v0 x.1 x.2 (drawnFlag s.draws) s.flags
      draws := s.draws + 1 }.writeOp16 x.1 dst

/-- R506: the count CL, not reduced. -/
def countCl (s : State) : Nat := (s.reg8 .cl).toNat

/-- R507: D0 /0 ROL Eb,1. -/
def execRolEb1 (e : RM8) (s : State) : Host.Outcome State Fault Refusal := .next (shift8 .rol 1 (rm8 s e) s)

/-- R507: D1 /0 ROL Ev,1. -/
def execRolEv1 (e : RM16) (s : State) : Host.Outcome State Fault Refusal := .next (shift16 .rol 1 (rm16 s e) s)

/-- R507: D2 /0 ROL Eb,CL. -/
def execRolEbCl (e : RM8) (s : State) : Host.Outcome State Fault Refusal :=
  .next (shift8 .rol (countCl s) (rm8 s e) s)

/-- R507: D3 /0 ROL Ev,CL. -/
def execRolEvCl (e : RM16) (s : State) : Host.Outcome State Fault Refusal :=
  .next (shift16 .rol (countCl s) (rm16 s e) s)

/-- R508: D0 /1 ROR Eb,1. -/
def execRorEb1 (e : RM8) (s : State) : Host.Outcome State Fault Refusal := .next (shift8 .ror 1 (rm8 s e) s)

/-- R508: D1 /1 ROR Ev,1. -/
def execRorEv1 (e : RM16) (s : State) : Host.Outcome State Fault Refusal := .next (shift16 .ror 1 (rm16 s e) s)

/-- R508: D2 /1 ROR Eb,CL. -/
def execRorEbCl (e : RM8) (s : State) : Host.Outcome State Fault Refusal :=
  .next (shift8 .ror (countCl s) (rm8 s e) s)

/-- R508: D3 /1 ROR Ev,CL. -/
def execRorEvCl (e : RM16) (s : State) : Host.Outcome State Fault Refusal :=
  .next (shift16 .ror (countCl s) (rm16 s e) s)

/-- R509: D0 /2 RCL Eb,1. -/
def execRclEb1 (e : RM8) (s : State) : Host.Outcome State Fault Refusal := .next (shift8 .rcl 1 (rm8 s e) s)

/-- R509: D1 /2 RCL Ev,1. -/
def execRclEv1 (e : RM16) (s : State) : Host.Outcome State Fault Refusal := .next (shift16 .rcl 1 (rm16 s e) s)

/-- R509: D2 /2 RCL Eb,CL. -/
def execRclEbCl (e : RM8) (s : State) : Host.Outcome State Fault Refusal :=
  .next (shift8 .rcl (countCl s) (rm8 s e) s)

/-- R509: D3 /2 RCL Ev,CL. -/
def execRclEvCl (e : RM16) (s : State) : Host.Outcome State Fault Refusal :=
  .next (shift16 .rcl (countCl s) (rm16 s e) s)

/-- R510: D0 /3 RCR Eb,1. -/
def execRcrEb1 (e : RM8) (s : State) : Host.Outcome State Fault Refusal := .next (shift8 .rcr 1 (rm8 s e) s)

/-- R510: D1 /3 RCR Ev,1. -/
def execRcrEv1 (e : RM16) (s : State) : Host.Outcome State Fault Refusal := .next (shift16 .rcr 1 (rm16 s e) s)

/-- R510: D2 /3 RCR Eb,CL. -/
def execRcrEbCl (e : RM8) (s : State) : Host.Outcome State Fault Refusal :=
  .next (shift8 .rcr (countCl s) (rm8 s e) s)

/-- R510: D3 /3 RCR Ev,CL. -/
def execRcrEvCl (e : RM16) (s : State) : Host.Outcome State Fault Refusal :=
  .next (shift16 .rcr (countCl s) (rm16 s e) s)

/-- R511: D0 /4 SHL Eb,1. -/
def execShlEb1 (e : RM8) (s : State) : Host.Outcome State Fault Refusal := .next (shift8 .shl 1 (rm8 s e) s)

/-- R511: D1 /4 SHL Ev,1. -/
def execShlEv1 (e : RM16) (s : State) : Host.Outcome State Fault Refusal := .next (shift16 .shl 1 (rm16 s e) s)

/-- R511: D2 /4 SHL Eb,CL. -/
def execShlEbCl (e : RM8) (s : State) : Host.Outcome State Fault Refusal :=
  .next (shift8 .shl (countCl s) (rm8 s e) s)

/-- R511: D3 /4 SHL Ev,CL. -/
def execShlEvCl (e : RM16) (s : State) : Host.Outcome State Fault Refusal :=
  .next (shift16 .shl (countCl s) (rm16 s e) s)

/-- R512: D0 /5 SHR Eb,1. -/
def execShrEb1 (e : RM8) (s : State) : Host.Outcome State Fault Refusal := .next (shift8 .shr 1 (rm8 s e) s)

/-- R512: D1 /5 SHR Ev,1. -/
def execShrEv1 (e : RM16) (s : State) : Host.Outcome State Fault Refusal := .next (shift16 .shr 1 (rm16 s e) s)

/-- R512: D2 /5 SHR Eb,CL. -/
def execShrEbCl (e : RM8) (s : State) : Host.Outcome State Fault Refusal :=
  .next (shift8 .shr (countCl s) (rm8 s e) s)

/-- R512: D3 /5 SHR Ev,CL. -/
def execShrEvCl (e : RM16) (s : State) : Host.Outcome State Fault Refusal :=
  .next (shift16 .shr (countCl s) (rm16 s e) s)

/-- R513: D0 /7 SAR Eb,1. -/
def execSarEb1 (e : RM8) (s : State) : Host.Outcome State Fault Refusal := .next (shift8 .sar 1 (rm8 s e) s)

/-- R513: D1 /7 SAR Ev,1. -/
def execSarEv1 (e : RM16) (s : State) : Host.Outcome State Fault Refusal := .next (shift16 .sar 1 (rm16 s e) s)

/-- R513: D2 /7 SAR Eb,CL. -/
def execSarEbCl (e : RM8) (s : State) : Host.Outcome State Fault Refusal :=
  .next (shift8 .sar (countCl s) (rm8 s e) s)

/-- R513: D3 /7 SAR Ev,CL. -/
def execSarEvCl (e : RM16) (s : State) : Host.Outcome State Fault Refusal :=
  .next (shift16 .sar (countCl s) (rm16 s e) s)

end Sys2Proof.Machine
end

