-- ==== Sys2Proof/Machine/Stack.lean ====
section
/-! DEFINITION. PUSH, POP, PUSHF and POPF (spec/40_data_transfer.md rules R307 to R312, R326, R327). -/

namespace Sys2Proof.Machine

/-- R307: PUSH of a general register: SP is decremented first, so PUSH SP writes the new SP (D21). -/
def pushReg (r : Reg16) (s : State) : State :=
  let s := s.decSp
  s.segWrite16 s.segs.ss s.regs.sp (s.reg16 r)

/-- R310: POP of a general register; POP SP leaves the popped word. -/
def popReg (r : Reg16) (s : State) : State := s.drop16.setReg16 r s.top16

/-- R309: PUSH of an `rm` operand; the register form with SP is PUSH SP, any other operand is read before SP changes. -/
def pushRm (e : RM16) (s : State) : State :=
  match e with
  | .reg .sp => pushReg .sp s
  | _ => s.push16 (s.readOp16 (rm16 s e))

/-- R311: POP of a segment register (R806: with the interrupt delay). -/
def popSreg (i : SegReg) (s : State) : State := { s.drop16.setSreg i s.top16 with intDelay := true }

/-- R307: 50 PUSH AX. -/
def execPushAx (s : State) : Host.Outcome State Fault Refusal := .next (pushReg .ax s)

/-- R307: 51 PUSH CX. -/
def execPushCx (s : State) : Host.Outcome State Fault Refusal := .next (pushReg .cx s)

/-- R307: 52 PUSH DX. -/
def execPushDx (s : State) : Host.Outcome State Fault Refusal := .next (pushReg .dx s)

/-- R307: 53 PUSH BX. -/
def execPushBx (s : State) : Host.Outcome State Fault Refusal := .next (pushReg .bx s)

/-- R307: 54 PUSH SP. -/
def execPushSp (s : State) : Host.Outcome State Fault Refusal := .next (pushReg .sp s)

/-- R307: 55 PUSH BP. -/
def execPushBp (s : State) : Host.Outcome State Fault Refusal := .next (pushReg .bp s)

/-- R307: 56 PUSH SI. -/
def execPushSi (s : State) : Host.Outcome State Fault Refusal := .next (pushReg .si s)

/-- R307: 57 PUSH DI. -/
def execPushDi (s : State) : Host.Outcome State Fault Refusal := .next (pushReg .di s)

/-- R308: 06 PUSH ES. -/
def execPushEs (s : State) : Host.Outcome State Fault Refusal := .next (s.push16 s.segs.es)

/-- R308: 0E PUSH CS. -/
def execPushCs (s : State) : Host.Outcome State Fault Refusal := .next (s.push16 s.segs.cs)

/-- R308: 16 PUSH SS. -/
def execPushSs (s : State) : Host.Outcome State Fault Refusal := .next (s.push16 s.segs.ss)

/-- R308: 1E PUSH DS. -/
def execPushDs (s : State) : Host.Outcome State Fault Refusal := .next (s.push16 s.segs.ds)

/-- R309: FF /6 PUSH Ev. -/
def execPushEv (e : RM16) (s : State) : Host.Outcome State Fault Refusal := .next (pushRm e s)

/-- R310: 58 POP AX. -/
def execPopAx (s : State) : Host.Outcome State Fault Refusal := .next (popReg .ax s)

/-- R310: 59 POP CX. -/
def execPopCx (s : State) : Host.Outcome State Fault Refusal := .next (popReg .cx s)

/-- R310: 5A POP DX. -/
def execPopDx (s : State) : Host.Outcome State Fault Refusal := .next (popReg .dx s)

/-- R310: 5B POP BX. -/
def execPopBx (s : State) : Host.Outcome State Fault Refusal := .next (popReg .bx s)

/-- R310: 5C POP SP. -/
def execPopSp (s : State) : Host.Outcome State Fault Refusal := .next (popReg .sp s)

/-- R310: 5D POP BP. -/
def execPopBp (s : State) : Host.Outcome State Fault Refusal := .next (popReg .bp s)

/-- R310: 5E POP SI. -/
def execPopSi (s : State) : Host.Outcome State Fault Refusal := .next (popReg .si s)

/-- R310: 5F POP DI. -/
def execPopDi (s : State) : Host.Outcome State Fault Refusal := .next (popReg .di s)

/-- R311: 07 POP ES. -/
def execPopEs (s : State) : Host.Outcome State Fault Refusal := .next (popSreg .es s)

/-- R311: 17 POP SS. -/
def execPopSs (s : State) : Host.Outcome State Fault Refusal := .next (popSreg .ss s)

/-- R311: 1F POP DS. -/
def execPopDs (s : State) : Host.Outcome State Fault Refusal := .next (popSreg .ds s)

/-- R312: 8F /0 POP Ev. -/
def execPopEv (e : RM16) (s : State) : Host.Outcome State Fault Refusal :=
  .next (s.drop16.writeOp16 s.top16 (rm16 s e))

/-- R326: 9C PUSHF. -/
def execPushf (s : State) : Host.Outcome State Fault Refusal := .next (s.push16 s.flags)

/-- R327: 9D POPF. -/
def execPopf (s : State) : Host.Outcome State Fault Refusal := .next { s.drop16 with flags := s.top16 }

end Sys2Proof.Machine
end

