-- ==== Sys2Proof/Machine/Strings.lean ====
section
/-! DEFINITION. MOVS, CMPS, SCAS, LODS and STOS and their repetition (spec/43_string.md). -/

namespace Sys2Proof.Machine

/-- R550: `delta` for elements of `n` bytes. -/
def strDelta (s : State) (n : Word) : Word := if s.flag .df then -n else n

/-- R550: SI moved by one element. -/
def stepSi (n : Word) (s : State) : State := s.setReg16 .si (s.regs.si + strDelta s n)

/-- R550: DI moved by one element. -/
def stepDi (n : Word) (s : State) : State := s.setReg16 .di (s.regs.di + strDelta s n)

/-- R551, R552: whether a repeat goes on after an iteration that left CX and ZF in `s`. -/
def repeats (usesZf : Bool) (r : Rep) (s : State) : Bool :=
  s.regs.cx != 0 && (!usesZf || (match r with
    | .rep => s.flag .zf
    | .repne => !s.flag .zf))

/-- R551: one step of a string instruction: at most one iteration; while more remain IP goes back to `start_IP`. -/
def stringStep (usesZf : Bool) (body : State → State) (s : State) : State :=
  match s.tr.rep with
  | none => body s
  | some r =>
    if s.regs.cx = 0 then s
    else
      let t := body s
      let t := t.setReg16 .cx (t.regs.cx - 1)
      if repeats usesZf r t then { t with ip := t.tr.startIp } else t

/-- R554: one iteration of MOVSB. -/
def movs8 (s : State) : State :=
  stepDi 1 (stepSi 1 (s.segWrite8 s.segs.es s.regs.di (s.segRead8 (segOr s .ds) s.regs.si)))

/-- R554: one iteration of MOVSW. -/
def movs16 (s : State) : State :=
  stepDi 2 (stepSi 2 (s.segWrite16 s.segs.es s.regs.di (s.segRead16 (segOr s .ds) s.regs.si)))

/-- R555: one iteration of CMPSB: the flags of `[src_seg:SI] - ES:[DI]`. -/
def cmps8 (s : State) : State :=
  let a := s.segRead8 (segOr s .ds) s.regs.si
  let b := s.segRead8 s.segs.es s.regs.di
  stepDi 1 (stepSi 1 { s with flags := (subFlags a b false s.flags).2 })

/-- R555: one iteration of CMPSW. -/
def cmps16 (s : State) : State :=
  let a := s.segRead16 (segOr s .ds) s.regs.si
  let b := s.segRead16 s.segs.es s.regs.di
  stepDi 2 (stepSi 2 { s with flags := (subFlags a b false s.flags).2 })

/-- R556: one iteration of SCASB: the flags of `AL - ES:[DI]`. -/
def scas8 (s : State) : State :=
  let b := s.segRead8 s.segs.es s.regs.di
  stepDi 1 { s with flags := (subFlags (s.reg8 .al) b false s.flags).2 }

/-- R556: one iteration of SCASW. -/
def scas16 (s : State) : State :=
  let b := s.segRead16 s.segs.es s.regs.di
  stepDi 2 { s with flags := (subFlags s.regs.ax b false s.flags).2 }

/-- R557: one iteration of LODSB. -/
def lods8 (s : State) : State := stepSi 1 (s.setReg8 .al (s.segRead8 (segOr s .ds) s.regs.si))

/-- R557: one iteration of LODSW. -/
def lods16 (s : State) : State := stepSi 2 (s.setReg16 .ax (s.segRead16 (segOr s .ds) s.regs.si))

/-- R558: one iteration of STOSB. -/
def stos8 (s : State) : State := stepDi 1 (s.segWrite8 s.segs.es s.regs.di (s.reg8 .al))

/-- R558: one iteration of STOSW. -/
def stos16 (s : State) : State := stepDi 2 (s.segWrite16 s.segs.es s.regs.di s.regs.ax)

/-- R554: A4 MOVSB. -/
def execMovsb (s : State) : Host.Outcome State Fault Refusal := .next (stringStep false movs8 s)

/-- R554: A5 MOVSW. -/
def execMovsw (s : State) : Host.Outcome State Fault Refusal := .next (stringStep false movs16 s)

/-- R555: A6 CMPSB. -/
def execCmpsb (s : State) : Host.Outcome State Fault Refusal := .next (stringStep true cmps8 s)

/-- R555: A7 CMPSW. -/
def execCmpsw (s : State) : Host.Outcome State Fault Refusal := .next (stringStep true cmps16 s)

/-- R556: AE SCASB. -/
def execScasb (s : State) : Host.Outcome State Fault Refusal := .next (stringStep true scas8 s)

/-- R556: AF SCASW. -/
def execScasw (s : State) : Host.Outcome State Fault Refusal := .next (stringStep true scas16 s)

/-- R557: AC LODSB. -/
def execLodsb (s : State) : Host.Outcome State Fault Refusal := .next (stringStep false lods8 s)

/-- R557: AD LODSW. -/
def execLodsw (s : State) : Host.Outcome State Fault Refusal := .next (stringStep false lods16 s)

/-- R558: AA STOSB. -/
def execStosb (s : State) : Host.Outcome State Fault Refusal := .next (stringStep false stos8 s)

/-- R558: AB STOSW. -/
def execStosw (s : State) : Host.Outcome State Fault Refusal := .next (stringStep false stos16 s)

end Sys2Proof.Machine
end

