-- ==== Sys2Proof/Machine/Transfer.lean ====
section
/-! DEFINITION. MOV, XCHG, NOP, XLAT, LEA, LDS, LES, LAHF and SAHF (spec/40_data_transfer.md). -/

namespace Sys2Proof.Machine

/-- R303, R311: a load of a segment register holds interrupts off for one instruction (R806). -/
def loadSreg (i : SegReg) (v : Word) (s : State) : State := { s.setSreg i v with intDelay := true }

/-- R313: XCHG of 8-bit operands. -/
def xchg8 (a b : Operand8) (s : State) : State := (s.writeOp8 (s.readOp8 b) a).writeOp8 (s.readOp8 a) b

/-- R313, R314: XCHG of 16-bit operands. -/
def xchg16 (a b : Operand16) (s : State) : State := (s.writeOp16 (s.readOp16 b) a).writeOp16 (s.readOp16 a) b

/-- R322, R323: LDS and LES; both words are read before either register is written. -/
def loadFar (i : SegReg) (m : Mem) (g : Reg16) (s : State) : State :=
  (s.setReg16 g (farOff s m)).setSreg i (farSeg s m)

/-- R301: 88 MOV Eb,Gb. -/
def execMovEbGb (e : RM8) (g : Reg8) (s : State) : Host.Outcome State Fault Refusal :=
  .next (s.writeOp8 (s.readOp8 (.reg g)) (rm8 s e))

/-- R301: 89 MOV Ev,Gv. -/
def execMovEvGv (e : RM16) (g : Reg16) (s : State) : Host.Outcome State Fault Refusal :=
  .next (s.writeOp16 (s.readOp16 (.reg g)) (rm16 s e))

/-- R301: 8A MOV Gb,Eb. -/
def execMovGbEb (e : RM8) (g : Reg8) (s : State) : Host.Outcome State Fault Refusal :=
  .next (s.writeOp8 (s.readOp8 (rm8 s e)) (.reg g))

/-- R301: 8B MOV Gv,Ev. -/
def execMovGvEv (e : RM16) (g : Reg16) (s : State) : Host.Outcome State Fault Refusal :=
  .next (s.writeOp16 (s.readOp16 (rm16 s e)) (.reg g))

/-- R302: 8C MOV Ew,Sw. -/
def execMovEwSw (e : RM16) (sr : SegReg) (s : State) : Host.Outcome State Fault Refusal :=
  .next (s.writeOp16 (s.sreg sr) (rm16 s e))

/-- R303: 8E /0 MOV Sw,Ew (ES). -/
def execMovSwEwEs (e : RM16) (s : State) : Host.Outcome State Fault Refusal :=
  .next (loadSreg .es (s.readOp16 (rm16 s e)) s)

/-- R303: 8E MOV Sw,Ew (SS, DS). -/
def execMovSwEwSsDs (e : RM16) (sr : SegReg) (s : State) : Host.Outcome State Fault Refusal :=
  .next (loadSreg sr (s.readOp16 (rm16 s e)) s)

/-- R304: B0 MOV AL,Ib. -/
def execMovAlIb (v : Byte) (s : State) : Host.Outcome State Fault Refusal := .next (s.setReg8 .al v)

/-- R304: B1 MOV CL,Ib. -/
def execMovClIb (v : Byte) (s : State) : Host.Outcome State Fault Refusal := .next (s.setReg8 .cl v)

/-- R304: B2 MOV DL,Ib. -/
def execMovDlIb (v : Byte) (s : State) : Host.Outcome State Fault Refusal := .next (s.setReg8 .dl v)

/-- R304: B3 MOV BL,Ib. -/
def execMovBlIb (v : Byte) (s : State) : Host.Outcome State Fault Refusal := .next (s.setReg8 .bl v)

/-- R304: B4 MOV AH,Ib. -/
def execMovAhIb (v : Byte) (s : State) : Host.Outcome State Fault Refusal := .next (s.setReg8 .ah v)

/-- R304: B5 MOV CH,Ib. -/
def execMovChIb (v : Byte) (s : State) : Host.Outcome State Fault Refusal := .next (s.setReg8 .ch v)

/-- R304: B6 MOV DH,Ib. -/
def execMovDhIb (v : Byte) (s : State) : Host.Outcome State Fault Refusal := .next (s.setReg8 .dh v)

/-- R304: B7 MOV BH,Ib. -/
def execMovBhIb (v : Byte) (s : State) : Host.Outcome State Fault Refusal := .next (s.setReg8 .bh v)

/-- R304: B8 MOV AX,Iv. -/
def execMovAxIv (v : Word) (s : State) : Host.Outcome State Fault Refusal := .next (s.setReg16 .ax v)

/-- R304: B9 MOV CX,Iv. -/
def execMovCxIv (v : Word) (s : State) : Host.Outcome State Fault Refusal := .next (s.setReg16 .cx v)

/-- R304: BA MOV DX,Iv. -/
def execMovDxIv (v : Word) (s : State) : Host.Outcome State Fault Refusal := .next (s.setReg16 .dx v)

/-- R304: BB MOV BX,Iv. -/
def execMovBxIv (v : Word) (s : State) : Host.Outcome State Fault Refusal := .next (s.setReg16 .bx v)

/-- R304: BC MOV SP,Iv. -/
def execMovSpIv (v : Word) (s : State) : Host.Outcome State Fault Refusal := .next (s.setReg16 .sp v)

/-- R304: BD MOV BP,Iv. -/
def execMovBpIv (v : Word) (s : State) : Host.Outcome State Fault Refusal := .next (s.setReg16 .bp v)

/-- R304: BE MOV SI,Iv. -/
def execMovSiIv (v : Word) (s : State) : Host.Outcome State Fault Refusal := .next (s.setReg16 .si v)

/-- R304: BF MOV DI,Iv. -/
def execMovDiIv (v : Word) (s : State) : Host.Outcome State Fault Refusal := .next (s.setReg16 .di v)

/-- R305: C6 /0 MOV Eb,Ib. -/
def execMovEbIb (e : RM8) (v : Byte) (s : State) : Host.Outcome State Fault Refusal := .next (s.writeOp8 v (rm8 s e))

/-- R305: C7 /0 MOV Ev,Iv. -/
def execMovEvIv (e : RM16) (v : Word) (s : State) : Host.Outcome State Fault Refusal :=
  .next (s.writeOp16 v (rm16 s e))

/-- R306: A0 MOV AL,Ob. -/
def execMovAlOb (v : Word) (s : State) : Host.Outcome State Fault Refusal :=
  .next (s.setReg8 .al (s.segRead8 (segOr s .ds) v))

/-- R306: A1 MOV AX,Ov. -/
def execMovAxOv (v : Word) (s : State) : Host.Outcome State Fault Refusal :=
  .next (s.setReg16 .ax (s.segRead16 (segOr s .ds) v))

/-- R306: A2 MOV Ob,AL. -/
def execMovObAl (v : Word) (s : State) : Host.Outcome State Fault Refusal :=
  .next (s.segWrite8 (segOr s .ds) v (s.reg8 .al))

/-- R306: A3 MOV Ov,AX. -/
def execMovOvAx (v : Word) (s : State) : Host.Outcome State Fault Refusal :=
  .next (s.segWrite16 (segOr s .ds) v s.regs.ax)

/-- R313: 86 XCHG Eb,Gb. -/
def execXchgEbGb (e : RM8) (g : Reg8) (s : State) : Host.Outcome State Fault Refusal :=
  .next (xchg8 (rm8 s e) (.reg g) s)

/-- R313: 87 XCHG Ev,Gv. -/
def execXchgEvGv (e : RM16) (g : Reg16) (s : State) : Host.Outcome State Fault Refusal :=
  .next (xchg16 (rm16 s e) (.reg g) s)

/-- R314: 91 XCHG CX,AX. -/
def execXchgCxAx (s : State) : Host.Outcome State Fault Refusal := .next (xchg16 (.reg .ax) (.reg .cx) s)

/-- R314: 92 XCHG DX,AX. -/
def execXchgDxAx (s : State) : Host.Outcome State Fault Refusal := .next (xchg16 (.reg .ax) (.reg .dx) s)

/-- R314: 93 XCHG BX,AX. -/
def execXchgBxAx (s : State) : Host.Outcome State Fault Refusal := .next (xchg16 (.reg .ax) (.reg .bx) s)

/-- R314: 94 XCHG SP,AX. -/
def execXchgSpAx (s : State) : Host.Outcome State Fault Refusal := .next (xchg16 (.reg .ax) (.reg .sp) s)

/-- R314: 95 XCHG BP,AX. -/
def execXchgBpAx (s : State) : Host.Outcome State Fault Refusal := .next (xchg16 (.reg .ax) (.reg .bp) s)

/-- R314: 96 XCHG SI,AX. -/
def execXchgSiAx (s : State) : Host.Outcome State Fault Refusal := .next (xchg16 (.reg .ax) (.reg .si) s)

/-- R314: 97 XCHG DI,AX. -/
def execXchgDiAx (s : State) : Host.Outcome State Fault Refusal := .next (xchg16 (.reg .ax) (.reg .di) s)

/-- R315: 90 NOP. -/
def execNop (s : State) : Host.Outcome State Fault Refusal := .next s

/-- R320: D7 XLAT. -/
def execXlat (s : State) : Host.Outcome State Fault Refusal :=
  .next (s.setReg8 .al (s.segRead8 (segOr s .ds) (s.regs.bx + zext16 (s.reg8 .al))))

/-- R321: 8D LEA Gv,M. -/
def execLeaGvM (m : Mem) (g : Reg16) (s : State) : Host.Outcome State Fault Refusal := .next (s.setReg16 g (ea s m))

/-- R322: C5 LDS Gv,Mp. -/
def execLdsGvMp (m : Mem) (g : Reg16) (s : State) : Host.Outcome State Fault Refusal := .next (loadFar .ds m g s)

/-- R323: C4 LES Gv,Mp. -/
def execLesGvMp (m : Mem) (g : Reg16) (s : State) : Host.Outcome State Fault Refusal := .next (loadFar .es m g s)

/-- R324: 9F LAHF. -/
def execLahf (s : State) : Host.Outcome State Fault Refusal := .next (s.setReg8 .ah (loByte s.flags))

/-- R325: 9E SAHF. -/
def execSahf (s : State) : Host.Outcome State Fault Refusal :=
  .next { s with flags := (s.flags &&& 0xFF2A) ||| (zext16 (s.reg8 .ah) &&& 0x00D5) }

end Sys2Proof.Machine
end

