-- ==== Sys2Proof/Machine/Dispatch.lean ====
section
/-! DEFINITION. The meaning of each instruction, one arm per constructor of `Instr`. -/

namespace Sys2Proof.Machine

def exec (i : Instr) (s : State) : Host.Outcome State Fault Refusal :=
  match i with
  | .addEbGb e g => Sys2Proof.Machine.execAddEbGb e g s
  | .addEvGv e g => Sys2Proof.Machine.execAddEvGv e g s
  | .addGbEb e g => Sys2Proof.Machine.execAddGbEb e g s
  | .addGvEv e g => Sys2Proof.Machine.execAddGvEv e g s
  | .addAlIb v => Sys2Proof.Machine.execAddAlIb v s
  | .addAxIv v => Sys2Proof.Machine.execAddAxIv v s
  | .orEbGb e g => Sys2Proof.Machine.execOrEbGb e g s
  | .orEvGv e g => Sys2Proof.Machine.execOrEvGv e g s
  | .orGbEb e g => Sys2Proof.Machine.execOrGbEb e g s
  | .orGvEv e g => Sys2Proof.Machine.execOrGvEv e g s
  | .orAlIb v => Sys2Proof.Machine.execOrAlIb v s
  | .orAxIv v => Sys2Proof.Machine.execOrAxIv v s
  | .adcEbGb e g => Sys2Proof.Machine.execAdcEbGb e g s
  | .adcEvGv e g => Sys2Proof.Machine.execAdcEvGv e g s
  | .adcGbEb e g => Sys2Proof.Machine.execAdcGbEb e g s
  | .adcGvEv e g => Sys2Proof.Machine.execAdcGvEv e g s
  | .adcAlIb v => Sys2Proof.Machine.execAdcAlIb v s
  | .adcAxIv v => Sys2Proof.Machine.execAdcAxIv v s
  | .sbbEbGb e g => Sys2Proof.Machine.execSbbEbGb e g s
  | .sbbEvGv e g => Sys2Proof.Machine.execSbbEvGv e g s
  | .sbbGbEb e g => Sys2Proof.Machine.execSbbGbEb e g s
  | .sbbGvEv e g => Sys2Proof.Machine.execSbbGvEv e g s
  | .sbbAlIb v => Sys2Proof.Machine.execSbbAlIb v s
  | .sbbAxIv v => Sys2Proof.Machine.execSbbAxIv v s
  | .andEbGb e g => Sys2Proof.Machine.execAndEbGb e g s
  | .andEvGv e g => Sys2Proof.Machine.execAndEvGv e g s
  | .andGbEb e g => Sys2Proof.Machine.execAndGbEb e g s
  | .andGvEv e g => Sys2Proof.Machine.execAndGvEv e g s
  | .andAlIb v => Sys2Proof.Machine.execAndAlIb v s
  | .andAxIv v => Sys2Proof.Machine.execAndAxIv v s
  | .subEbGb e g => Sys2Proof.Machine.execSubEbGb e g s
  | .subEvGv e g => Sys2Proof.Machine.execSubEvGv e g s
  | .subGbEb e g => Sys2Proof.Machine.execSubGbEb e g s
  | .subGvEv e g => Sys2Proof.Machine.execSubGvEv e g s
  | .subAlIb v => Sys2Proof.Machine.execSubAlIb v s
  | .subAxIv v => Sys2Proof.Machine.execSubAxIv v s
  | .xorEbGb e g => Sys2Proof.Machine.execXorEbGb e g s
  | .xorEvGv e g => Sys2Proof.Machine.execXorEvGv e g s
  | .xorGbEb e g => Sys2Proof.Machine.execXorGbEb e g s
  | .xorGvEv e g => Sys2Proof.Machine.execXorGvEv e g s
  | .xorAlIb v => Sys2Proof.Machine.execXorAlIb v s
  | .xorAxIv v => Sys2Proof.Machine.execXorAxIv v s
  | .cmpEbGb e g => Sys2Proof.Machine.execCmpEbGb e g s
  | .cmpEvGv e g => Sys2Proof.Machine.execCmpEvGv e g s
  | .cmpGbEb e g => Sys2Proof.Machine.execCmpGbEb e g s
  | .cmpGvEv e g => Sys2Proof.Machine.execCmpGvEv e g s
  | .cmpAlIb v => Sys2Proof.Machine.execCmpAlIb v s
  | .cmpAxIv v => Sys2Proof.Machine.execCmpAxIv v s
  | .joJb v => Sys2Proof.Machine.execJoJb v s
  | .jnoJb v => Sys2Proof.Machine.execJnoJb v s
  | .jbJb v => Sys2Proof.Machine.execJbJb v s
  | .jnbJb v => Sys2Proof.Machine.execJnbJb v s
  | .jzJb v => Sys2Proof.Machine.execJzJb v s
  | .jnzJb v => Sys2Proof.Machine.execJnzJb v s
  | .jbeJb v => Sys2Proof.Machine.execJbeJb v s
  | .jaJb v => Sys2Proof.Machine.execJaJb v s
  | .jsJb v => Sys2Proof.Machine.execJsJb v s
  | .jnsJb v => Sys2Proof.Machine.execJnsJb v s
  | .jpJb v => Sys2Proof.Machine.execJpJb v s
  | .jnpJb v => Sys2Proof.Machine.execJnpJb v s
  | .jlJb v => Sys2Proof.Machine.execJlJb v s
  | .jgeJb v => Sys2Proof.Machine.execJgeJb v s
  | .jleJb v => Sys2Proof.Machine.execJleJb v s
  | .jgJb v => Sys2Proof.Machine.execJgJb v s
  | .addEbIb e v => Sys2Proof.Machine.execAddEbIb e v s
  | .orEbIb e v => Sys2Proof.Machine.execOrEbIb e v s
  | .adcEbIb e v => Sys2Proof.Machine.execAdcEbIb e v s
  | .sbbEbIb e v => Sys2Proof.Machine.execSbbEbIb e v s
  | .andEbIb e v => Sys2Proof.Machine.execAndEbIb e v s
  | .subEbIb e v => Sys2Proof.Machine.execSubEbIb e v s
  | .xorEbIb e v => Sys2Proof.Machine.execXorEbIb e v s
  | .cmpEbIb e v => Sys2Proof.Machine.execCmpEbIb e v s
  | .addEvIv e v => Sys2Proof.Machine.execAddEvIv e v s
  | .orEvIv e v => Sys2Proof.Machine.execOrEvIv e v s
  | .adcEvIv e v => Sys2Proof.Machine.execAdcEvIv e v s
  | .sbbEvIv e v => Sys2Proof.Machine.execSbbEvIv e v s
  | .andEvIv e v => Sys2Proof.Machine.execAndEvIv e v s
  | .subEvIv e v => Sys2Proof.Machine.execSubEvIv e v s
  | .xorEvIv e v => Sys2Proof.Machine.execXorEvIv e v s
  | .cmpEvIv e v => Sys2Proof.Machine.execCmpEvIv e v s
  | .addEbIb82 e v => Sys2Proof.Machine.execAddEbIb82 e v s
  | .orEbIb82 e v => Sys2Proof.Machine.execOrEbIb82 e v s
  | .adcEbIb82 e v => Sys2Proof.Machine.execAdcEbIb82 e v s
  | .sbbEbIb82 e v => Sys2Proof.Machine.execSbbEbIb82 e v s
  | .andEbIb82 e v => Sys2Proof.Machine.execAndEbIb82 e v s
  | .subEbIb82 e v => Sys2Proof.Machine.execSubEbIb82 e v s
  | .xorEbIb82 e v => Sys2Proof.Machine.execXorEbIb82 e v s
  | .cmpEbIb82 e v => Sys2Proof.Machine.execCmpEbIb82 e v s
  | .addEvIb e v => Sys2Proof.Machine.execAddEvIb e v s
  | .orEvIb e v => Sys2Proof.Machine.execOrEvIb e v s
  | .adcEvIb e v => Sys2Proof.Machine.execAdcEvIb e v s
  | .sbbEvIb e v => Sys2Proof.Machine.execSbbEvIb e v s
  | .andEvIb e v => Sys2Proof.Machine.execAndEvIb e v s
  | .subEvIb e v => Sys2Proof.Machine.execSubEvIb e v s
  | .xorEvIb e v => Sys2Proof.Machine.execXorEvIb e v s
  | .cmpEvIb e v => Sys2Proof.Machine.execCmpEvIb e v s
  | .testEbGb e g => Sys2Proof.Machine.execTestEbGb e g s
  | .testEvGv e g => Sys2Proof.Machine.execTestEvGv e g s
  | .xchgEbGb e g => Sys2Proof.Machine.execXchgEbGb e g s
  | .xchgEvGv e g => Sys2Proof.Machine.execXchgEvGv e g s
  | .movEbGb e g => Sys2Proof.Machine.execMovEbGb e g s
  | .movEvGv e g => Sys2Proof.Machine.execMovEvGv e g s
  | .movGbEb e g => Sys2Proof.Machine.execMovGbEb e g s
  | .movGvEv e g => Sys2Proof.Machine.execMovGvEv e g s
  | .movEwSw e sr => Sys2Proof.Machine.execMovEwSw e sr s
  | .leaGvM m g => Sys2Proof.Machine.execLeaGvM m g s
  | .movSwEwEs e => Sys2Proof.Machine.execMovSwEwEs e s
  | .movSwEwSsDs e sr => Sys2Proof.Machine.execMovSwEwSsDs e sr s
  | .popEv e => Sys2Proof.Machine.execPopEv e s
  | .callAp off seg => Sys2Proof.Machine.execCallAp off seg s
  | .movAlOb v => Sys2Proof.Machine.execMovAlOb v s
  | .movAxOv v => Sys2Proof.Machine.execMovAxOv v s
  | .movObAl v => Sys2Proof.Machine.execMovObAl v s
  | .movOvAx v => Sys2Proof.Machine.execMovOvAx v s
  | .testAlIb v => Sys2Proof.Machine.execTestAlIb v s
  | .testAxIv v => Sys2Proof.Machine.execTestAxIv v s
  | .movAlIb v => Sys2Proof.Machine.execMovAlIb v s
  | .movAxIv v => Sys2Proof.Machine.execMovAxIv v s
  | .movClIb v => Sys2Proof.Machine.execMovClIb v s
  | .movCxIv v => Sys2Proof.Machine.execMovCxIv v s
  | .movDlIb v => Sys2Proof.Machine.execMovDlIb v s
  | .movDxIv v => Sys2Proof.Machine.execMovDxIv v s
  | .movBlIb v => Sys2Proof.Machine.execMovBlIb v s
  | .movBxIv v => Sys2Proof.Machine.execMovBxIv v s
  | .movAhIb v => Sys2Proof.Machine.execMovAhIb v s
  | .movSpIv v => Sys2Proof.Machine.execMovSpIv v s
  | .movChIb v => Sys2Proof.Machine.execMovChIb v s
  | .movBpIv v => Sys2Proof.Machine.execMovBpIv v s
  | .movDhIb v => Sys2Proof.Machine.execMovDhIb v s
  | .movSiIv v => Sys2Proof.Machine.execMovSiIv v s
  | .movBhIb v => Sys2Proof.Machine.execMovBhIb v s
  | .movDiIv v => Sys2Proof.Machine.execMovDiIv v s
  | .retIw v => Sys2Proof.Machine.execRetIw v s
  | .lesGvMp m g => Sys2Proof.Machine.execLesGvMp m g s
  | .ldsGvMp m g => Sys2Proof.Machine.execLdsGvMp m g s
  | .movEbIb e v => Sys2Proof.Machine.execMovEbIb e v s
  | .movEvIv e v => Sys2Proof.Machine.execMovEvIv e v s
  | .retfIw v => Sys2Proof.Machine.execRetfIw v s
  | .intIb v => Sys2Proof.Machine.execIntIb v s
  | .rolEb1 e => Sys2Proof.Machine.execRolEb1 e s
  | .rorEb1 e => Sys2Proof.Machine.execRorEb1 e s
  | .rclEb1 e => Sys2Proof.Machine.execRclEb1 e s
  | .rcrEb1 e => Sys2Proof.Machine.execRcrEb1 e s
  | .shlEb1 e => Sys2Proof.Machine.execShlEb1 e s
  | .shrEb1 e => Sys2Proof.Machine.execShrEb1 e s
  | .sarEb1 e => Sys2Proof.Machine.execSarEb1 e s
  | .rolEv1 e => Sys2Proof.Machine.execRolEv1 e s
  | .rorEv1 e => Sys2Proof.Machine.execRorEv1 e s
  | .rclEv1 e => Sys2Proof.Machine.execRclEv1 e s
  | .rcrEv1 e => Sys2Proof.Machine.execRcrEv1 e s
  | .shlEv1 e => Sys2Proof.Machine.execShlEv1 e s
  | .shrEv1 e => Sys2Proof.Machine.execShrEv1 e s
  | .sarEv1 e => Sys2Proof.Machine.execSarEv1 e s
  | .rolEbCl e => Sys2Proof.Machine.execRolEbCl e s
  | .rorEbCl e => Sys2Proof.Machine.execRorEbCl e s
  | .rclEbCl e => Sys2Proof.Machine.execRclEbCl e s
  | .rcrEbCl e => Sys2Proof.Machine.execRcrEbCl e s
  | .shlEbCl e => Sys2Proof.Machine.execShlEbCl e s
  | .shrEbCl e => Sys2Proof.Machine.execShrEbCl e s
  | .sarEbCl e => Sys2Proof.Machine.execSarEbCl e s
  | .rolEvCl e => Sys2Proof.Machine.execRolEvCl e s
  | .rorEvCl e => Sys2Proof.Machine.execRorEvCl e s
  | .rclEvCl e => Sys2Proof.Machine.execRclEvCl e s
  | .rcrEvCl e => Sys2Proof.Machine.execRcrEvCl e s
  | .shlEvCl e => Sys2Proof.Machine.execShlEvCl e s
  | .shrEvCl e => Sys2Proof.Machine.execShrEvCl e s
  | .sarEvCl e => Sys2Proof.Machine.execSarEvCl e s
  | .aamIb v => Sys2Proof.Machine.execAamIb v s
  | .aadIb v => Sys2Proof.Machine.execAadIb v s
  | .esc0Ev e x => Sys2Proof.Machine.execEsc0Ev e x s
  | .esc1Ev e x => Sys2Proof.Machine.execEsc1Ev e x s
  | .esc2Ev e x => Sys2Proof.Machine.execEsc2Ev e x s
  | .esc3Ev e x => Sys2Proof.Machine.execEsc3Ev e x s
  | .esc4Ev e x => Sys2Proof.Machine.execEsc4Ev e x s
  | .esc5Ev e x => Sys2Proof.Machine.execEsc5Ev e x s
  | .esc6Ev e x => Sys2Proof.Machine.execEsc6Ev e x s
  | .esc7Ev e x => Sys2Proof.Machine.execEsc7Ev e x s
  | .loopnzJb v => Sys2Proof.Machine.execLoopnzJb v s
  | .loopzJb v => Sys2Proof.Machine.execLoopzJb v s
  | .loopJb v => Sys2Proof.Machine.execLoopJb v s
  | .jcxzJb v => Sys2Proof.Machine.execJcxzJb v s
  | .inAlIb v => Sys2Proof.Machine.execInAlIb v s
  | .inAxIb v => Sys2Proof.Machine.execInAxIb v s
  | .outIbAl v => Sys2Proof.Machine.execOutIbAl v s
  | .outIbAx v => Sys2Proof.Machine.execOutIbAx v s
  | .callJv v => Sys2Proof.Machine.execCallJv v s
  | .jmpJv v => Sys2Proof.Machine.execJmpJv v s
  | .jmpAp off seg => Sys2Proof.Machine.execJmpAp off seg s
  | .jmpJb v => Sys2Proof.Machine.execJmpJb v s
  | .testEbIb e v => Sys2Proof.Machine.execTestEbIb e v s
  | .notEb e => Sys2Proof.Machine.execNotEb e s
  | .negEb e => Sys2Proof.Machine.execNegEb e s
  | .mulEb e => Sys2Proof.Machine.execMulEb e s
  | .imulEb e => Sys2Proof.Machine.execImulEb e s
  | .divEb e => Sys2Proof.Machine.execDivEb e s
  | .idivEb e => Sys2Proof.Machine.execIdivEb e s
  | .testEvIv e v => Sys2Proof.Machine.execTestEvIv e v s
  | .notEv e => Sys2Proof.Machine.execNotEv e s
  | .negEv e => Sys2Proof.Machine.execNegEv e s
  | .mulEv e => Sys2Proof.Machine.execMulEv e s
  | .imulEv e => Sys2Proof.Machine.execImulEv e s
  | .divEv e => Sys2Proof.Machine.execDivEv e s
  | .idivEv e => Sys2Proof.Machine.execIdivEv e s
  | .incEb e => Sys2Proof.Machine.execIncEb e s
  | .decEb e => Sys2Proof.Machine.execDecEb e s
  | .callbackIw rm id => Sys2Proof.Machine.execCallbackIw rm id s
  | .incEv e => Sys2Proof.Machine.execIncEv e s
  | .decEv e => Sys2Proof.Machine.execDecEv e s
  | .callEv e => Sys2Proof.Machine.execCallEv e s
  | .callMp m => Sys2Proof.Machine.execCallMp m s
  | .jmpEv e => Sys2Proof.Machine.execJmpEv e s
  | .jmpMp m => Sys2Proof.Machine.execJmpMp m s
  | .pushEv e => Sys2Proof.Machine.execPushEv e s
  | .ud op m => Sys2Proof.Machine.execUd op m s
  | .pushEs => Sys2Proof.Machine.execPushEs s
  | .popEs => Sys2Proof.Machine.execPopEs s
  | .pushCs => Sys2Proof.Machine.execPushCs s
  | .pushSs => Sys2Proof.Machine.execPushSs s
  | .popSs => Sys2Proof.Machine.execPopSs s
  | .pushDs => Sys2Proof.Machine.execPushDs s
  | .popDs => Sys2Proof.Machine.execPopDs s
  | .daa => Sys2Proof.Machine.execDaa s
  | .das => Sys2Proof.Machine.execDas s
  | .aaa => Sys2Proof.Machine.execAaa s
  | .aas => Sys2Proof.Machine.execAas s
  | .segEs => Sys2Proof.Machine.execSegEs s
  | .segCs => Sys2Proof.Machine.execSegCs s
  | .segSs => Sys2Proof.Machine.execSegSs s
  | .segDs => Sys2Proof.Machine.execSegDs s
  | .incAx => Sys2Proof.Machine.execIncAx s
  | .decAx => Sys2Proof.Machine.execDecAx s
  | .pushAx => Sys2Proof.Machine.execPushAx s
  | .popAx => Sys2Proof.Machine.execPopAx s
  | .incCx => Sys2Proof.Machine.execIncCx s
  | .decCx => Sys2Proof.Machine.execDecCx s
  | .pushCx => Sys2Proof.Machine.execPushCx s
  | .popCx => Sys2Proof.Machine.execPopCx s
  | .incDx => Sys2Proof.Machine.execIncDx s
  | .decDx => Sys2Proof.Machine.execDecDx s
  | .pushDx => Sys2Proof.Machine.execPushDx s
  | .popDx => Sys2Proof.Machine.execPopDx s
  | .incBx => Sys2Proof.Machine.execIncBx s
  | .decBx => Sys2Proof.Machine.execDecBx s
  | .pushBx => Sys2Proof.Machine.execPushBx s
  | .popBx => Sys2Proof.Machine.execPopBx s
  | .incSp => Sys2Proof.Machine.execIncSp s
  | .decSp => Sys2Proof.Machine.execDecSp s
  | .pushSp => Sys2Proof.Machine.execPushSp s
  | .popSp => Sys2Proof.Machine.execPopSp s
  | .incBp => Sys2Proof.Machine.execIncBp s
  | .decBp => Sys2Proof.Machine.execDecBp s
  | .pushBp => Sys2Proof.Machine.execPushBp s
  | .popBp => Sys2Proof.Machine.execPopBp s
  | .incSi => Sys2Proof.Machine.execIncSi s
  | .decSi => Sys2Proof.Machine.execDecSi s
  | .pushSi => Sys2Proof.Machine.execPushSi s
  | .popSi => Sys2Proof.Machine.execPopSi s
  | .incDi => Sys2Proof.Machine.execIncDi s
  | .decDi => Sys2Proof.Machine.execDecDi s
  | .pushDi => Sys2Proof.Machine.execPushDi s
  | .popDi => Sys2Proof.Machine.execPopDi s
  | .nop => Sys2Proof.Machine.execNop s
  | .xchgCxAx => Sys2Proof.Machine.execXchgCxAx s
  | .xchgDxAx => Sys2Proof.Machine.execXchgDxAx s
  | .xchgBxAx => Sys2Proof.Machine.execXchgBxAx s
  | .xchgSpAx => Sys2Proof.Machine.execXchgSpAx s
  | .xchgBpAx => Sys2Proof.Machine.execXchgBpAx s
  | .xchgSiAx => Sys2Proof.Machine.execXchgSiAx s
  | .xchgDiAx => Sys2Proof.Machine.execXchgDiAx s
  | .cbw => Sys2Proof.Machine.execCbw s
  | .cwd => Sys2Proof.Machine.execCwd s
  | .wait => Sys2Proof.Machine.execWait s
  | .pushf => Sys2Proof.Machine.execPushf s
  | .popf => Sys2Proof.Machine.execPopf s
  | .sahf => Sys2Proof.Machine.execSahf s
  | .lahf => Sys2Proof.Machine.execLahf s
  | .movsb => Sys2Proof.Machine.execMovsb s
  | .movsw => Sys2Proof.Machine.execMovsw s
  | .cmpsb => Sys2Proof.Machine.execCmpsb s
  | .cmpsw => Sys2Proof.Machine.execCmpsw s
  | .stosb => Sys2Proof.Machine.execStosb s
  | .stosw => Sys2Proof.Machine.execStosw s
  | .lodsb => Sys2Proof.Machine.execLodsb s
  | .lodsw => Sys2Proof.Machine.execLodsw s
  | .scasb => Sys2Proof.Machine.execScasb s
  | .scasw => Sys2Proof.Machine.execScasw s
  | .ret => Sys2Proof.Machine.execRet s
  | .retf => Sys2Proof.Machine.execRetf s
  | .int3 => Sys2Proof.Machine.execInt3 s
  | .into => Sys2Proof.Machine.execInto s
  | .iret => Sys2Proof.Machine.execIret s
  | .xlat => Sys2Proof.Machine.execXlat s
  | .inAlDx => Sys2Proof.Machine.execInAlDx s
  | .inAxDx => Sys2Proof.Machine.execInAxDx s
  | .outDxAl => Sys2Proof.Machine.execOutDxAl s
  | .outDxAx => Sys2Proof.Machine.execOutDxAx s
  | .lock => Sys2Proof.Machine.execLock s
  | .repne => Sys2Proof.Machine.execRepne s
  | .rep => Sys2Proof.Machine.execRep s
  | .hlt => Sys2Proof.Machine.execHlt s
  | .cmc => Sys2Proof.Machine.execCmc s
  | .clc => Sys2Proof.Machine.execClc s
  | .stc => Sys2Proof.Machine.execStc s
  | .cli => Sys2Proof.Machine.execCli s
  | .sti => Sys2Proof.Machine.execSti s
  | .cld => Sys2Proof.Machine.execCld s
  | .std => Sys2Proof.Machine.execStd s

end Sys2Proof.Machine
end

