-- ==== Sys2Proof/Machine/Cycle.lean ====
section
/-! DEFINITION. The parts of one step (spec/30_encoding.md rules R200 to R202, R217): fetching, interrupt delivery, the
prefix loop and the end of an instruction, and whose turn it is (spec/60_exceptions.md rules R803, R829). -/

namespace Sys2Proof.Machine

/-- R14, R55: the `k` code bytes from `CS:off` on; the offset wraps within the segment. -/
def codeBytes (s : State) : Nat → Word → List Byte
  | 0, _ => []
  | k + 1, off => s.segRead8 s.segs.cs off :: codeBytes s k (off + 1)

/-- The longest instruction's worth of bytes at `CS:IP`. -/
def fetched (s : State) : List Byte := codeBytes s maxLength s.ip

/-- R55, R217: IP past the bytes an instruction took of the fetched ones; `rest` are those it left. -/
def advance (rest : List Byte) (s : State) : State :=
  { s with ip := s.ip + BitVec.ofNat 16 (maxLength - rest.length) }

/-- R200, R807: one interrupt taken at the top of a step; the step ends with it. -/
def deliver (v : Byte) (s : State) : State := { interruptCall v { s with halted := false } with tr := .none }

/-- R200 step 4: the decode-transient state of a new instruction. -/
def beginInstr (s : State) : State :=
  { s with
    tr := { segOvr := none, rep := none, lock := false, startIp := s.ip, tfAtStart := s.flag .tf, prefixBytes := [],
            calledInt := false } }

/-- R71, R200: the end of an instruction: the decode-transient state is gone, and with `SINGLE_STEP` `trap_pending` records
whether it was traced. A step that ended the run leaves `trap_pending` (notes/assumptions/6.md). -/
def finish (s : State) : State :=
  { s with
    tr := .none
    trapPending :=
      if s.status = .running ∧ s.params.singleStep = true then s.tr.tfAtStart && !s.tr.calledInt
      else s.trapPending }

/-- R202: the machine after 65536 consecutive prefix bytes. -/
def prefixHang (s : State) : State := finish { s with status := .fault .prefixHang }

/-- R200 steps 5 to 7: prefixes are executed (they record themselves, R202) and the loop goes on; any other instruction ends
the step. The number bounds the prefixes still allowed. -/
def runFrom : Nat → State → Host.Outcome State Fault Refusal
  | 0, s => .next (prefixHang s)
  | n + 1, s =>
    match decode (fetched s) with
    | .error _ => .fault .truncatedFetch
    | .ok (i, rest) =>
      match exec i (advance rest s) with
      | .next t => if i.isPrefix then runFrom n t else .next (finish t)
      | .fault r => .fault r
      | .refused r => .refused r

/-- R200: one step of the running CPU. -/
def cpuStep (s : State) : Host.Outcome State Fault Refusal :=
  if s.nmiPending && !s.intDelay then .next (deliver 2 { s with nmiPending := false })
  else if s.intrPending && !s.intDelay && s.flag .ie then
    .next (deliver s.intrVector { s with intrPending := false })
  else if s.params.singleStep && s.trapPending && !s.intDelay then .next (deliver 1 { s with trapPending := false })
  else if s.halted then .next { s with intDelay := false }
  else runFrom Config.prefixLimit (beginInstr { s with intDelay := false })

/-- R829, R831: the next turn of the schedule: a host action between two steps, or a step of the CPU. -/
def takeTurn (s : State) : Host.Outcome State Fault Refusal :=
  match s.sched with
  | [] => cpuStep s
  | .cpu :: rest => cpuStep { s with sched := rest }
  | .host a :: rest => .next (hostAct a { s with sched := rest })

/-- R75: no step runs once the run has ended. -/
def stepRunning (s : State) : Host.Outcome State Fault Refusal :=
  match s.status with
  | .running => takeTurn s
  | .exited code => .fault (.exited code)
  | .fault reason => .fault (.machineFault reason)

/-- A running machine whose next turn is the CPU's and fetches, with the given bytes at `CS:IP`. -/
def placeCode (s : State) (bs : List Byte) : State :=
  let t := s.writeBytes s.segs.cs s.ip bs
  { t with
    status := .running
    halted := false
    nmiPending := false
    intrPending := false
    trapPending := false
    sched := [] }

end Sys2Proof.Machine
end

