-- ==== Sys2Proof/Machine/Step.lean ====
section
/-! DEFINITION. The step of the machine, and the placing of one instruction for it to fetch. -/

namespace Sys2Proof.Machine

/-- R75, R200, R829: one step. -/
def step (s : State) : Host.Outcome State Fault Refusal := stepRunning s

/-- `s` with the instruction of a table word (R223) stored at `CS:IP`, running and with nothing to be delivered first. -/
def State.withFetchWord (s : State) (nbits w : Nat) : State := placeCode s (tableBytes nbits w)

end Sys2Proof.Machine
end

