-- ==== Sys2Proof/Safety.lean ====
section
/-! DEFINITION. Launch states (spec/70_reset_and_hazards.md rules R900 to R902), runs and what counts as their end (R906), the
CPU's `run_cycles` (spec/60_exceptions.md rule R830) and fair executions (R829), in the terms claims use. -/

namespace Sys2Proof.Safety

open Sys2Proof.Machine

/-- R906: an INTR is pending and not masked. -/
def intrDeliverable (s : State) : Bool := s.intrPending && s.flag .ie

/-- R906: some device of the block can still raise an INTR that would be taken. -/
def timerCanWake (s : State) : Bool := s.pit.c0.active && s.flag .ie

/-- R906: the quiescent halt, the second successful end where no host action follows (U17). -/
def QuiescentHalt (s : State) : Prop :=
  s.status = .running ∧ s.halted = true ∧ s.nmiPending = false ∧ intrDeliverable s = false ∧ timerCanWake s = false

/-- R75, R906: the host ended the program, the first successful end. -/
def Exited (s : State) : Prop := ∃ code, s.status = .exited code

/-- R831, U17: a turn of the host, which can wake a quiescent halt. The scheduler's PIT cycles (R829) are none: DEDUCED
(notes/assumptions/16.md). -/
def Turn.isHostAction : Turn → Bool
  | .cpu | .host (.runPit _) => false
  | .host _ => true

/-- R906, U17: the run has ended successfully: the program has exited, or the halt is quiescent and no host action follows. -/
def EndedSuccessfully (s : State) : Prop :=
  Exited s ∨ (QuiescentHalt s ∧ ∀ t ∈ s.sched, Turn.isHostAction t = false)

/-- R75, R812: the machine has stopped with a machine fault, never a successful end. -/
def Faulted (s : State) : Prop := ∃ reason, s.status = .fault reason

/-- R830: the CPU's own `run_cycles`: `k` CPU steps, stopping early where the machine stops. -/
def cpuSteps : Nat → State → State
  | 0, s => s
  | k + 1, s =>
    if s.status = .running then
      match cpuStep s with
      | .next t => cpuSteps k t
      | .fault _ | .refused _ => s
    else s

/-- R829: one move, of the CPU or of the host side. -/
def move (t : Turn) (s : State) : Host.Outcome State Fault Refusal := Machine.step { s with sched := [t] }

/-- R902 step 4: the host's port writes before launch. -/
def bootWrites (ws : List (Word × Byte)) (s : State) : State := ws.foldl (fun t w => ioWrite w.1 w.2 t) s

/-- R78, R900, R902: a launch state: any launch record, parameters and registry, and the PIT as the host's port writes left
it. DESIGN CHOICE (notes/assumptions/21.md): R78 gives the PIT its construction state, R902 lets the host program it first.
`intr_vector` (R78, U10) and the draw number are any. -/
def Launched (s : State) : Prop :=
  ∃ (l : Launch) (p : Params) (r : Registry) (ws : List (Word × Byte)) (v : Byte) (n : Nat),
    Memory.wf l.mem ∧ s = { bootWrites ws (State.launch l p r) with intrVector := v, draws := n }

/-- R906: the machine after some turns; none where it stops before the last. -/
def perform : List Turn → State → Option State
  | [], s => some s
  | t :: ts, s =>
    match move t s with
    | .next u => perform ts u
    | .fault _ | .refused _ => none

/-- R906: a finite run: steps and host actions from a launch state to `s`. -/
def Run (ts : List Turn) (s : State) : Prop := ∃ l, Launched l ∧ perform ts l = some s

/-- R906: an infinite run: the states and the turns between them. -/
structure Execution where
  states : Nat → State
  turns : Nat → Turn

/-- R906: it starts from a launch state, and every state comes from the one before by its turn. -/
def Execution.Valid (e : Execution) : Prop :=
  Launched (e.states 0) ∧ ∀ n, move (e.turns n) (e.states n) = .next (e.states (n + 1))

/-- R824: the PIT cycles of one turn. DESIGN CHOICE (notes/assumptions/20.md): cycles that a callback handler runs inside a
CPU turn (R832) do not count. -/
def turnCycles : Turn → Nat
  | .host (.runPit n) => n
  | .host _ | .cpu => 0

/-- The PIT cycles of the `k` turns from turn `n` on. -/
def Execution.cycles (e : Execution) (n : Nat) : Nat → Nat
  | 0 => 0
  | k + 1 => e.cycles n k + turnCycles (e.turns (n + k))

/-- R829: the CPU takes infinitely many steps and, while channel 0 stays active, the PIT advances without bound. -/
def Execution.Fair (e : Execution) : Prop :=
  (∀ n, ∃ m, n ≤ m ∧ e.turns m = .cpu) ∧
  ∀ n, (∀ m, n ≤ m → (e.states m).pit.c0.active = true) → ∀ c, ∃ k, c ≤ e.cycles n k

/-- R906, U17: an infinite run has ended successfully at `n`: the program has exited, or from `n` on the halt stays quiescent
and no host action follows. -/
def Execution.EndsAt (e : Execution) (n : Nat) : Prop :=
  Exited (e.states n) ∨
    ∀ m, n ≤ m → QuiescentHalt (e.states m) ∧ Turn.isHostAction (e.turns m) = false

/-- R906: an infinite run that never reaches an end. -/
def Execution.Hangs (e : Execution) : Prop := ∀ n, ¬ e.EndsAt n

end Sys2Proof.Safety
end

