-- ==== Sys2Proof/Certificates/Slice0/Obligations.lean ====
section
/-! DEFINITION. The statements for the provers. The first part holds their vocabulary: the bits of FLAGS, the flag rules as
relations on numbers, the operand forms of each instruction family, and what each instruction may change. -/

namespace Sys2Proof.Spec

open Sys2Proof.Machine

/-! ### FLAGS (R18, R56) -/

def cf (fl : Word) : Bool := fl.getLsbD 0
def pf (fl : Word) : Bool := fl.getLsbD 2
def af (fl : Word) : Bool := fl.getLsbD 4
def zf (fl : Word) : Bool := fl.getLsbD 6
def sf (fl : Word) : Bool := fl.getLsbD 7
def tf (fl : Word) : Bool := fl.getLsbD 8
def ie (fl : Word) : Bool := fl.getLsbD 9
def df (fl : Word) : Bool := fl.getLsbD 10
def ovf (fl : Word) : Bool := fl.getLsbD 11

/-- CF, PF, AF, ZF, SF and OF. -/
def statusBits : List Nat := [0, 2, 4, 6, 7, 11]

/-- Every bit outside `bits` is as before. -/
def Keeps (bits : List Nat) (fl fl' : Word) : Prop := ∀ k, k ∉ bits → fl'.getLsbD k = fl.getLsbD k

/-- R18: `SZP_w(r)`. -/
structure Szp {w : Nat} (r : BitVec w) (fl' : Word) : Prop where
  zero : zf fl' = decide (r.toNat = 0)
  sign : sf fl' = decide (2 ^ (w - 1) ≤ r.toNat)
  parity : pf fl' = decide ((List.range 8).countP (fun k => r.getLsbD k) % 2 = 0)

/-- R401: `AddFlags(w, d, s, c)` answers `r` and leaves `fl'`. -/
structure AddRule {w : Nat} (d s : BitVec w) (c : Bool) (fl : Word) (r : BitVec w) (fl' : Word) : Prop where
  result : r.toNat = (d.toNat + s.toNat + c.toNat) % 2 ^ w
  carry : cf fl' = decide (2 ^ w - 1 < d.toNat + s.toNat + c.toNat)
  overflow : ovf fl' = ((r ^^^ s) &&& (r ^^^ d)).getLsbD (w - 1)
  aux : af fl' = (r ^^^ s ^^^ d).getLsbD 4
  szp : Szp r fl'
  others : Keeps statusBits fl fl'

/-- R402: `SubFlags(w, d, s, b)` answers `r` and leaves `fl'`. -/
structure SubRule {w : Nat} (d s : BitVec w) (b : Bool) (fl : Word) (r : BitVec w) (fl' : Word) : Prop where
  result : (r.toNat : Int) = ((d.toNat : Int) - s.toNat - b.toNat) % 2 ^ w
  borrow : cf fl' = decide (d.toNat < s.toNat + b.toNat)
  overflow : ovf fl' = ((s ^^^ d) &&& (r ^^^ d)).getLsbD (w - 1)
  aux : af fl' = (r ^^^ s ^^^ d).getLsbD 4
  szp : Szp r fl'
  others : Keeps statusBits fl fl'

/-- R500: `LogicFlags(w, r)` leaves `fl'`. -/
structure LogicRule {w : Nat} (r : BitVec w) (fl fl' : Word) : Prop where
  carry : cf fl' = false
  overflow : ovf fl' = false
  aux : af fl' = false
  szp : Szp r fl'
  others : Keeps statusBits fl fl'

/-! ### Operand forms -/

/-- R400: the 8-bit forms of the eight binary operations, with destination and source. -/
inductive Binary8 (s : State) : AluOp → Instr → Operand8 → Operand8 → Prop where
  | addEbGb (e : RM8) (g : Reg8) : Binary8 s .add (.addEbGb e g) (rm8 s e) (.reg g)
  | addGbEb (e : RM8) (g : Reg8) : Binary8 s .add (.addGbEb e g) (.reg g) (rm8 s e)
  | addAlIb (v : Byte) : Binary8 s .add (.addAlIb v) (.reg .al) (.imm v)
  | addEbIb (e : RM8) (v : Byte) : Binary8 s .add (.addEbIb e v) (rm8 s e) (.imm v)
  | addEbIb82 (e : RM8) (v : Byte) : Binary8 s .add (.addEbIb82 e v) (rm8 s e) (.imm v)
  | orEbGb (e : RM8) (g : Reg8) : Binary8 s .or (.orEbGb e g) (rm8 s e) (.reg g)
  | orGbEb (e : RM8) (g : Reg8) : Binary8 s .or (.orGbEb e g) (.reg g) (rm8 s e)
  | orAlIb (v : Byte) : Binary8 s .or (.orAlIb v) (.reg .al) (.imm v)
  | orEbIb (e : RM8) (v : Byte) : Binary8 s .or (.orEbIb e v) (rm8 s e) (.imm v)
  | orEbIb82 (e : RM8) (v : Byte) : Binary8 s .or (.orEbIb82 e v) (rm8 s e) (.imm v)
  | adcEbGb (e : RM8) (g : Reg8) : Binary8 s .adc (.adcEbGb e g) (rm8 s e) (.reg g)
  | adcGbEb (e : RM8) (g : Reg8) : Binary8 s .adc (.adcGbEb e g) (.reg g) (rm8 s e)
  | adcAlIb (v : Byte) : Binary8 s .adc (.adcAlIb v) (.reg .al) (.imm v)
  | adcEbIb (e : RM8) (v : Byte) : Binary8 s .adc (.adcEbIb e v) (rm8 s e) (.imm v)
  | adcEbIb82 (e : RM8) (v : Byte) : Binary8 s .adc (.adcEbIb82 e v) (rm8 s e) (.imm v)
  | sbbEbGb (e : RM8) (g : Reg8) : Binary8 s .sbb (.sbbEbGb e g) (rm8 s e) (.reg g)
  | sbbGbEb (e : RM8) (g : Reg8) : Binary8 s .sbb (.sbbGbEb e g) (.reg g) (rm8 s e)
  | sbbAlIb (v : Byte) : Binary8 s .sbb (.sbbAlIb v) (.reg .al) (.imm v)
  | sbbEbIb (e : RM8) (v : Byte) : Binary8 s .sbb (.sbbEbIb e v) (rm8 s e) (.imm v)
  | sbbEbIb82 (e : RM8) (v : Byte) : Binary8 s .sbb (.sbbEbIb82 e v) (rm8 s e) (.imm v)
  | andEbGb (e : RM8) (g : Reg8) : Binary8 s .and (.andEbGb e g) (rm8 s e) (.reg g)
  | andGbEb (e : RM8) (g : Reg8) : Binary8 s .and (.andGbEb e g) (.reg g) (rm8 s e)
  | andAlIb (v : Byte) : Binary8 s .and (.andAlIb v) (.reg .al) (.imm v)
  | andEbIb (e : RM8) (v : Byte) : Binary8 s .and (.andEbIb e v) (rm8 s e) (.imm v)
  | andEbIb82 (e : RM8) (v : Byte) : Binary8 s .and (.andEbIb82 e v) (rm8 s e) (.imm v)
  | subEbGb (e : RM8) (g : Reg8) : Binary8 s .sub (.subEbGb e g) (rm8 s e) (.reg g)
  | subGbEb (e : RM8) (g : Reg8) : Binary8 s .sub (.subGbEb e g) (.reg g) (rm8 s e)
  | subAlIb (v : Byte) : Binary8 s .sub (.subAlIb v) (.reg .al) (.imm v)
  | subEbIb (e : RM8) (v : Byte) : Binary8 s .sub (.subEbIb e v) (rm8 s e) (.imm v)
  | subEbIb82 (e : RM8) (v : Byte) : Binary8 s .sub (.subEbIb82 e v) (rm8 s e) (.imm v)
  | xorEbGb (e : RM8) (g : Reg8) : Binary8 s .xor (.xorEbGb e g) (rm8 s e) (.reg g)
  | xorGbEb (e : RM8) (g : Reg8) : Binary8 s .xor (.xorGbEb e g) (.reg g) (rm8 s e)
  | xorAlIb (v : Byte) : Binary8 s .xor (.xorAlIb v) (.reg .al) (.imm v)
  | xorEbIb (e : RM8) (v : Byte) : Binary8 s .xor (.xorEbIb e v) (rm8 s e) (.imm v)
  | xorEbIb82 (e : RM8) (v : Byte) : Binary8 s .xor (.xorEbIb82 e v) (rm8 s e) (.imm v)
  | cmpEbGb (e : RM8) (g : Reg8) : Binary8 s .cmp (.cmpEbGb e g) (rm8 s e) (.reg g)
  | cmpGbEb (e : RM8) (g : Reg8) : Binary8 s .cmp (.cmpGbEb e g) (.reg g) (rm8 s e)
  | cmpAlIb (v : Byte) : Binary8 s .cmp (.cmpAlIb v) (.reg .al) (.imm v)
  | cmpEbIb (e : RM8) (v : Byte) : Binary8 s .cmp (.cmpEbIb e v) (rm8 s e) (.imm v)
  | cmpEbIb82 (e : RM8) (v : Byte) : Binary8 s .cmp (.cmpEbIb82 e v) (rm8 s e) (.imm v)

/-- R400: the 16-bit forms. -/
inductive Binary16 (s : State) : AluOp → Instr → Operand16 → Operand16 → Prop where
  | addEvGv (e : RM16) (g : Reg16) : Binary16 s .add (.addEvGv e g) (rm16 s e) (.reg g)
  | addGvEv (e : RM16) (g : Reg16) : Binary16 s .add (.addGvEv e g) (.reg g) (rm16 s e)
  | addAxIv (v : Word) : Binary16 s .add (.addAxIv v) (.reg .ax) (.imm v)
  | addEvIv (e : RM16) (v : Word) : Binary16 s .add (.addEvIv e v) (rm16 s e) (.imm v)
  | addEvIb (e : RM16) (v : Byte) : Binary16 s .add (.addEvIb e v) (rm16 s e) (.imm (v.signExtend 16))
  | orEvGv (e : RM16) (g : Reg16) : Binary16 s .or (.orEvGv e g) (rm16 s e) (.reg g)
  | orGvEv (e : RM16) (g : Reg16) : Binary16 s .or (.orGvEv e g) (.reg g) (rm16 s e)
  | orAxIv (v : Word) : Binary16 s .or (.orAxIv v) (.reg .ax) (.imm v)
  | orEvIv (e : RM16) (v : Word) : Binary16 s .or (.orEvIv e v) (rm16 s e) (.imm v)
  | orEvIb (e : RM16) (v : Byte) : Binary16 s .or (.orEvIb e v) (rm16 s e) (.imm (v.signExtend 16))
  | adcEvGv (e : RM16) (g : Reg16) : Binary16 s .adc (.adcEvGv e g) (rm16 s e) (.reg g)
  | adcGvEv (e : RM16) (g : Reg16) : Binary16 s .adc (.adcGvEv e g) (.reg g) (rm16 s e)
  | adcAxIv (v : Word) : Binary16 s .adc (.adcAxIv v) (.reg .ax) (.imm v)
  | adcEvIv (e : RM16) (v : Word) : Binary16 s .adc (.adcEvIv e v) (rm16 s e) (.imm v)
  | adcEvIb (e : RM16) (v : Byte) : Binary16 s .adc (.adcEvIb e v) (rm16 s e) (.imm (v.signExtend 16))
  | sbbEvGv (e : RM16) (g : Reg16) : Binary16 s .sbb (.sbbEvGv e g) (rm16 s e) (.reg g)
  | sbbGvEv (e : RM16) (g : Reg16) : Binary16 s .sbb (.sbbGvEv e g) (.reg g) (rm16 s e)
  | sbbAxIv (v : Word) : Binary16 s .sbb (.sbbAxIv v) (.reg .ax) (.imm v)
  | sbbEvIv (e : RM16) (v : Word) : Binary16 s .sbb (.sbbEvIv e v) (rm16 s e) (.imm v)
  | sbbEvIb (e : RM16) (v : Byte) : Binary16 s .sbb (.sbbEvIb e v) (rm16 s e) (.imm (v.signExtend 16))
  | andEvGv (e : RM16) (g : Reg16) : Binary16 s .and (.andEvGv e g) (rm16 s e) (.reg g)
  | andGvEv (e : RM16) (g : Reg16) : Binary16 s .and (.andGvEv e g) (.reg g) (rm16 s e)
  | andAxIv (v : Word) : Binary16 s .and (.andAxIv v) (.reg .ax) (.imm v)
  | andEvIv (e : RM16) (v : Word) : Binary16 s .and (.andEvIv e v) (rm16 s e) (.imm v)
  | andEvIb (e : RM16) (v : Byte) : Binary16 s .and (.andEvIb e v) (rm16 s e) (.imm (v.signExtend 16))
  | subEvGv (e : RM16) (g : Reg16) : Binary16 s .sub (.subEvGv e g) (rm16 s e) (.reg g)
  | subGvEv (e : RM16) (g : Reg16) : Binary16 s .sub (.subGvEv e g) (.reg g) (rm16 s e)
  | subAxIv (v : Word) : Binary16 s .sub (.subAxIv v) (.reg .ax) (.imm v)
  | subEvIv (e : RM16) (v : Word) : Binary16 s .sub (.subEvIv e v) (rm16 s e) (.imm v)
  | subEvIb (e : RM16) (v : Byte) : Binary16 s .sub (.subEvIb e v) (rm16 s e) (.imm (v.signExtend 16))
  | xorEvGv (e : RM16) (g : Reg16) : Binary16 s .xor (.xorEvGv e g) (rm16 s e) (.reg g)
  | xorGvEv (e : RM16) (g : Reg16) : Binary16 s .xor (.xorGvEv e g) (.reg g) (rm16 s e)
  | xorAxIv (v : Word) : Binary16 s .xor (.xorAxIv v) (.reg .ax) (.imm v)
  | xorEvIv (e : RM16) (v : Word) : Binary16 s .xor (.xorEvIv e v) (rm16 s e) (.imm v)
  | xorEvIb (e : RM16) (v : Byte) : Binary16 s .xor (.xorEvIb e v) (rm16 s e) (.imm (v.signExtend 16))
  | cmpEvGv (e : RM16) (g : Reg16) : Binary16 s .cmp (.cmpEvGv e g) (rm16 s e) (.reg g)
  | cmpGvEv (e : RM16) (g : Reg16) : Binary16 s .cmp (.cmpGvEv e g) (.reg g) (rm16 s e)
  | cmpAxIv (v : Word) : Binary16 s .cmp (.cmpAxIv v) (.reg .ax) (.imm v)
  | cmpEvIv (e : RM16) (v : Word) : Binary16 s .cmp (.cmpEvIv e v) (rm16 s e) (.imm v)
  | cmpEvIb (e : RM16) (v : Byte) : Binary16 s .cmp (.cmpEvIb e v) (rm16 s e) (.imm (v.signExtend 16))

/-- R504: the forms of TEST. -/
inductive Test8 (s : State) : Instr → Operand8 → Operand8 → Prop where
  | testEbGb (e : RM8) (g : Reg8) : Test8 s (.testEbGb e g) (rm8 s e) (.reg g)
  | testAlIb (v : Byte) : Test8 s (.testAlIb v) (.reg .al) (.imm v)
  | testEbIb (e : RM8) (v : Byte) : Test8 s (.testEbIb e v) (rm8 s e) (.imm v)

inductive Test16 (s : State) : Instr → Operand16 → Operand16 → Prop where
  | testEvGv (e : RM16) (g : Reg16) : Test16 s (.testEvGv e g) (rm16 s e) (.reg g)
  | testAxIv (v : Word) : Test16 s (.testAxIv v) (.reg .ax) (.imm v)
  | testEvIv (e : RM16) (v : Word) : Test16 s (.testEvIv e v) (rm16 s e) (.imm v)

/-- R408, R409: the 8-bit forms of INC (`true`) and DEC. -/
inductive IncDec8 (s : State) : Bool → Instr → Operand8 → Prop where
  | incEb (e : RM8) : IncDec8 s true (.incEb e) (rm8 s e)
  | decEb (e : RM8) : IncDec8 s false (.decEb e) (rm8 s e)

/-- R408, R409: the 16-bit forms of INC (`true`) and DEC. -/
inductive IncDec16 (s : State) : Bool → Instr → Operand16 → Prop where
  | incEv (e : RM16) : IncDec16 s true (.incEv e) (rm16 s e)
  | decEv (e : RM16) : IncDec16 s false (.decEv e) (rm16 s e)
  | incAx : IncDec16 s true .incAx (.reg .ax)
  | incCx : IncDec16 s true .incCx (.reg .cx)
  | incDx : IncDec16 s true .incDx (.reg .dx)
  | incBx : IncDec16 s true .incBx (.reg .bx)
  | incSp : IncDec16 s true .incSp (.reg .sp)
  | incBp : IncDec16 s true .incBp (.reg .bp)
  | incSi : IncDec16 s true .incSi (.reg .si)
  | incDi : IncDec16 s true .incDi (.reg .di)
  | decAx : IncDec16 s false .decAx (.reg .ax)
  | decCx : IncDec16 s false .decCx (.reg .cx)
  | decDx : IncDec16 s false .decDx (.reg .dx)
  | decBx : IncDec16 s false .decBx (.reg .bx)
  | decSp : IncDec16 s false .decSp (.reg .sp)
  | decBp : IncDec16 s false .decBp (.reg .bp)
  | decSi : IncDec16 s false .decSi (.reg .si)
  | decDi : IncDec16 s false .decDi (.reg .di)

/-- R506: the 8-bit shifts and rotates, with count and operand. -/
inductive Shift8 (s : State) : ShiftOp → Instr → Nat → Operand8 → Prop where
  | rolEb1 (e : RM8) : Shift8 s .rol (.rolEb1 e) 1 (rm8 s e)
  | rolEbCl (e : RM8) : Shift8 s .rol (.rolEbCl e) (s.reg8 .cl).toNat (rm8 s e)
  | rorEb1 (e : RM8) : Shift8 s .ror (.rorEb1 e) 1 (rm8 s e)
  | rorEbCl (e : RM8) : Shift8 s .ror (.rorEbCl e) (s.reg8 .cl).toNat (rm8 s e)
  | rclEb1 (e : RM8) : Shift8 s .rcl (.rclEb1 e) 1 (rm8 s e)
  | rclEbCl (e : RM8) : Shift8 s .rcl (.rclEbCl e) (s.reg8 .cl).toNat (rm8 s e)
  | rcrEb1 (e : RM8) : Shift8 s .rcr (.rcrEb1 e) 1 (rm8 s e)
  | rcrEbCl (e : RM8) : Shift8 s .rcr (.rcrEbCl e) (s.reg8 .cl).toNat (rm8 s e)
  | shlEb1 (e : RM8) : Shift8 s .shl (.shlEb1 e) 1 (rm8 s e)
  | shlEbCl (e : RM8) : Shift8 s .shl (.shlEbCl e) (s.reg8 .cl).toNat (rm8 s e)
  | shrEb1 (e : RM8) : Shift8 s .shr (.shrEb1 e) 1 (rm8 s e)
  | shrEbCl (e : RM8) : Shift8 s .shr (.shrEbCl e) (s.reg8 .cl).toNat (rm8 s e)
  | sarEb1 (e : RM8) : Shift8 s .sar (.sarEb1 e) 1 (rm8 s e)
  | sarEbCl (e : RM8) : Shift8 s .sar (.sarEbCl e) (s.reg8 .cl).toNat (rm8 s e)

/-- R506: the 16-bit shifts and rotates, with count and operand. -/
inductive Shift16 (s : State) : ShiftOp → Instr → Nat → Operand16 → Prop where
  | rolEv1 (e : RM16) : Shift16 s .rol (.rolEv1 e) 1 (rm16 s e)
  | rolEvCl (e : RM16) : Shift16 s .rol (.rolEvCl e) (s.reg8 .cl).toNat (rm16 s e)
  | rorEv1 (e : RM16) : Shift16 s .ror (.rorEv1 e) 1 (rm16 s e)
  | rorEvCl (e : RM16) : Shift16 s .ror (.rorEvCl e) (s.reg8 .cl).toNat (rm16 s e)
  | rclEv1 (e : RM16) : Shift16 s .rcl (.rclEv1 e) 1 (rm16 s e)
  | rclEvCl (e : RM16) : Shift16 s .rcl (.rclEvCl e) (s.reg8 .cl).toNat (rm16 s e)
  | rcrEv1 (e : RM16) : Shift16 s .rcr (.rcrEv1 e) 1 (rm16 s e)
  | rcrEvCl (e : RM16) : Shift16 s .rcr (.rcrEvCl e) (s.reg8 .cl).toNat (rm16 s e)
  | shlEv1 (e : RM16) : Shift16 s .shl (.shlEv1 e) 1 (rm16 s e)
  | shlEvCl (e : RM16) : Shift16 s .shl (.shlEvCl e) (s.reg8 .cl).toNat (rm16 s e)
  | shrEv1 (e : RM16) : Shift16 s .shr (.shrEv1 e) 1 (rm16 s e)
  | shrEvCl (e : RM16) : Shift16 s .shr (.shrEvCl e) (s.reg8 .cl).toNat (rm16 s e)
  | sarEv1 (e : RM16) : Shift16 s .sar (.sarEv1 e) 1 (rm16 s e)
  | sarEvCl (e : RM16) : Shift16 s .sar (.sarEvCl e) (s.reg8 .cl).toNat (rm16 s e)

/-- R301, R304 to R306: the 8-bit MOV forms, with destination and source. -/
inductive Mov8 (s : State) : Instr → Operand8 → Operand8 → Prop where
  | movEbGb (e : RM8) (g : Reg8) : Mov8 s (.movEbGb e g) (rm8 s e) (.reg g)
  | movGbEb (e : RM8) (g : Reg8) : Mov8 s (.movGbEb e g) (.reg g) (rm8 s e)
  | movEbIb (e : RM8) (v : Byte) : Mov8 s (.movEbIb e v) (rm8 s e) (.imm v)
  | movAlOb (off : Word) : Mov8 s (.movAlOb off) (.reg .al) (.mem (segOr s .ds) off)
  | movObAl (off : Word) : Mov8 s (.movObAl off) (.mem (segOr s .ds) off) (.reg .al)
  | movAlIb (v : Byte) : Mov8 s (.movAlIb v) (.reg .al) (.imm v)
  | movClIb (v : Byte) : Mov8 s (.movClIb v) (.reg .cl) (.imm v)
  | movDlIb (v : Byte) : Mov8 s (.movDlIb v) (.reg .dl) (.imm v)
  | movBlIb (v : Byte) : Mov8 s (.movBlIb v) (.reg .bl) (.imm v)
  | movAhIb (v : Byte) : Mov8 s (.movAhIb v) (.reg .ah) (.imm v)
  | movChIb (v : Byte) : Mov8 s (.movChIb v) (.reg .ch) (.imm v)
  | movDhIb (v : Byte) : Mov8 s (.movDhIb v) (.reg .dh) (.imm v)
  | movBhIb (v : Byte) : Mov8 s (.movBhIb v) (.reg .bh) (.imm v)

/-- R301, R302, R304 to R306: the 16-bit MOV forms, with destination and source (of MOV from a segment register, its
value). -/
inductive Mov16 (s : State) : Instr → Operand16 → Operand16 → Prop where
  | movEvGv (e : RM16) (g : Reg16) : Mov16 s (.movEvGv e g) (rm16 s e) (.reg g)
  | movGvEv (e : RM16) (g : Reg16) : Mov16 s (.movGvEv e g) (.reg g) (rm16 s e)
  | movEvIv (e : RM16) (v : Word) : Mov16 s (.movEvIv e v) (rm16 s e) (.imm v)
  | movEwSw (e : RM16) (sr : SegReg) : Mov16 s (.movEwSw e sr) (rm16 s e) (.imm (s.sreg sr))
  | movAxOv (off : Word) : Mov16 s (.movAxOv off) (.reg .ax) (.mem (segOr s .ds) off)
  | movOvAx (off : Word) : Mov16 s (.movOvAx off) (.mem (segOr s .ds) off) (.reg .ax)
  | movAxIv (v : Word) : Mov16 s (.movAxIv v) (.reg .ax) (.imm v)
  | movCxIv (v : Word) : Mov16 s (.movCxIv v) (.reg .cx) (.imm v)
  | movDxIv (v : Word) : Mov16 s (.movDxIv v) (.reg .dx) (.imm v)
  | movBxIv (v : Word) : Mov16 s (.movBxIv v) (.reg .bx) (.imm v)
  | movSpIv (v : Word) : Mov16 s (.movSpIv v) (.reg .sp) (.imm v)
  | movBpIv (v : Word) : Mov16 s (.movBpIv v) (.reg .bp) (.imm v)
  | movSiIv (v : Word) : Mov16 s (.movSiIv v) (.reg .si) (.imm v)
  | movDiIv (v : Word) : Mov16 s (.movDiIv v) (.reg .di) (.imm v)

/-- R307 to R309, R326: the pushes, with the word each pushes. -/
inductive Pushes (s : State) : Instr → Word → Prop where
  | pushAx : Pushes s .pushAx s.regs.ax
  | pushCx : Pushes s .pushCx s.regs.cx
  | pushDx : Pushes s .pushDx s.regs.dx
  | pushBx : Pushes s .pushBx s.regs.bx
  | pushSp : Pushes s .pushSp (s.regs.sp - 2)
  | pushBp : Pushes s .pushBp s.regs.bp
  | pushSi : Pushes s .pushSi s.regs.si
  | pushDi : Pushes s .pushDi s.regs.di
  | pushEs : Pushes s .pushEs s.segs.es
  | pushCs : Pushes s .pushCs s.segs.cs
  | pushSs : Pushes s .pushSs s.segs.ss
  | pushDs : Pushes s .pushDs s.segs.ds
  | pushSpEv : Pushes s (.pushEv (.reg .sp)) (s.regs.sp - 2)
  | pushEv (e : RM16) (h : e ≠ .reg .sp) : Pushes s (.pushEv e) (s.readOp16 (rm16 s e))
  | pushf : Pushes s .pushf s.flags

/-- R310, R312: the pops into a general register or an `rm` operand. -/
inductive Pops (s : State) : Instr → Operand16 → Prop where
  | popAx : Pops s .popAx (.reg .ax)
  | popCx : Pops s .popCx (.reg .cx)
  | popDx : Pops s .popDx (.reg .dx)
  | popBx : Pops s .popBx (.reg .bx)
  | popSp : Pops s .popSp (.reg .sp)
  | popBp : Pops s .popBp (.reg .bp)
  | popSi : Pops s .popSi (.reg .si)
  | popDi : Pops s .popDi (.reg .di)
  | popEv (e : RM16) : Pops s (.popEv e) (rm16 s e)

/-- R313, R314: the 16-bit exchanges. -/
inductive Xchg16 (s : State) : Instr → Operand16 → Operand16 → Prop where
  | xchgEvGv (e : RM16) (g : Reg16) : Xchg16 s (.xchgEvGv e g) (rm16 s e) (.reg g)
  | xchgCxAx : Xchg16 s .xchgCxAx (.reg .ax) (.reg .cx)
  | xchgDxAx : Xchg16 s .xchgDxAx (.reg .ax) (.reg .dx)
  | xchgBxAx : Xchg16 s .xchgBxAx (.reg .ax) (.reg .bx)
  | xchgSpAx : Xchg16 s .xchgSpAx (.reg .ax) (.reg .sp)
  | xchgBpAx : Xchg16 s .xchgBpAx (.reg .ax) (.reg .bp)
  | xchgSiAx : Xchg16 s .xchgSiAx (.reg .ax) (.reg .si)
  | xchgDiAx : Xchg16 s .xchgDiAx (.reg .ax) (.reg .di)

/-- R614: the conditional jumps, with the displacement and the condition on a FLAGS word. -/
inductive Jcc : Word → Instr → Byte → Prop → Prop where
  | jo (fl : Word) (v : Byte) : Jcc fl (.joJb v) v (ovf fl = true)
  | jno (fl : Word) (v : Byte) : Jcc fl (.jnoJb v) v (ovf fl = false)
  | jb (fl : Word) (v : Byte) : Jcc fl (.jbJb v) v (cf fl = true)
  | jnb (fl : Word) (v : Byte) : Jcc fl (.jnbJb v) v (cf fl = false)
  | jz (fl : Word) (v : Byte) : Jcc fl (.jzJb v) v (zf fl = true)
  | jnz (fl : Word) (v : Byte) : Jcc fl (.jnzJb v) v (zf fl = false)
  | jbe (fl : Word) (v : Byte) : Jcc fl (.jbeJb v) v (cf fl = true ∨ zf fl = true)
  | ja (fl : Word) (v : Byte) : Jcc fl (.jaJb v) v (cf fl = false ∧ zf fl = false)
  | js (fl : Word) (v : Byte) : Jcc fl (.jsJb v) v (sf fl = true)
  | jns (fl : Word) (v : Byte) : Jcc fl (.jnsJb v) v (sf fl = false)
  | jp (fl : Word) (v : Byte) : Jcc fl (.jpJb v) v (pf fl = true)
  | jnp (fl : Word) (v : Byte) : Jcc fl (.jnpJb v) v (pf fl = false)
  | jl (fl : Word) (v : Byte) : Jcc fl (.jlJb v) v (sf fl ≠ ovf fl)
  | jge (fl : Word) (v : Byte) : Jcc fl (.jgeJb v) v (sf fl = ovf fl)
  | jle (fl : Word) (v : Byte) : Jcc fl (.jleJb v) v (zf fl = true ∨ sf fl ≠ ovf fl)
  | jg (fl : Word) (v : Byte) : Jcc fl (.jgJb v) v (zf fl = false ∧ sf fl = ovf fl)

/-- R600, R614: `i` goes from `s` to `target` where `c` holds, and else changes nothing. -/
def JumpsIff (s : State) (i : Instr) (target : Word) (c : Prop) : Prop :=
  (c → exec i s = .next { s with ip := target }) ∧ (¬c → exec i s = .next s)

/-- R614: in `s` the conditional jumps with displacement `disp` follow the order of `d` and `v`. -/
def JumpsInOrder {w : Nat} (s : State) (disp : Byte) (d v : BitVec w) : Prop :=
  ∃ target : Word, (target.toNat : Int) = (s.ip.toNat + disp.toInt) % 65536 ∧
    JumpsIff s (.jbJb disp) target (d.toNat < v.toNat) ∧
    JumpsIff s (.jnbJb disp) target (v.toNat ≤ d.toNat) ∧
    JumpsIff s (.jbeJb disp) target (d.toNat ≤ v.toNat) ∧
    JumpsIff s (.jaJb disp) target (v.toNat < d.toNat) ∧
    JumpsIff s (.jzJb disp) target (d = v) ∧
    JumpsIff s (.jnzJb disp) target (d ≠ v) ∧
    JumpsIff s (.jlJb disp) target (d.toInt < v.toInt) ∧
    JumpsIff s (.jgeJb disp) target (v.toInt ≤ d.toInt) ∧
    JumpsIff s (.jleJb disp) target (d.toInt ≤ v.toInt) ∧
    JumpsIff s (.jgJb disp) target (v.toInt < d.toInt)

/-! ### What each instruction may change -/

/-- The two bytes of the word at `seg:off` (R153). -/
def wordBytes (seg off : Word) : List Nat := [phys seg off, nextPhys (phys seg off)]

/-- The byte of an 8-bit memory operand. -/
def rmBytes8 (s : State) : RM8 → List Nat
  | .reg _ => []
  | .mem m => [phys (memSeg s m) (ea s m)]

/-- The bytes of a 16-bit memory operand. -/
def rmBytes16 (s : State) : RM16 → List Nat
  | .reg _ => []
  | .mem m => wordBytes (memSeg s m) (ea s m)

/-- The bytes `n` pushes write (R170). -/
def pushedBytes (s : State) (n : Nat) : List Nat :=
  (List.range n).flatMap fun k => wordBytes s.segs.ss (s.regs.sp - BitVec.ofNat 16 (2 * (k + 1)))

/-- R414: the least quotient IDIV stores. -/
def lowQuotient (s : State) (w : Nat) : Int :=
  if s.params.idivMinQuotientFaults then -(2 ^ (w - 1)) + 1 else -(2 ^ (w - 1))

/-- R413, R414, R419: the instruction raises the divide error. -/
def divideErrors (s : State) : Instr → Bool
  | .divEb e =>
    let v := (s.readOp8 (rm8 s e)).toNat
    v == 0 || decide (255 < s.regs.ax.toNat / v)
  | .divEv e =>
    let v := (s.readOp16 (rm16 s e)).toNat
    v == 0 || decide (65535 < (65536 * s.regs.dx.toNat + s.regs.ax.toNat) / v)
  | .idivEb e =>
    let v := (s.readOp8 (rm8 s e)).toInt
    let q := s.regs.ax.toInt.tdiv v
    v == 0 || decide (127 < q ∨ q < lowQuotient s 8)
  | .idivEv e =>
    let v := (s.readOp16 (rm16 s e)).toInt
    let q := (s.regs.dx ++ s.regs.ax).toInt.tdiv v
    v == 0 || decide (32767 < q ∨ q < lowQuotient s 16)
  | .aamIb v => v == 0
  | _ => false

/-- R551: a repeat prefix with CX = 0: no iteration. -/
def skips (s : State) : Bool := s.tr.rep.isSome && s.regs.cx == 0

/-- The addresses of the memory bytes an instruction stores to in state `s`, where `s.ip` is `next_IP`. -/
def stored (s : State) : Instr → List Nat
  | .addEbGb e _ | .orEbGb e _ | .adcEbGb e _ | .sbbEbGb e _ | .andEbGb e _ | .subEbGb e _
    | .xorEbGb e _ | .addEbIb e _ | .orEbIb e _ | .adcEbIb e _ | .sbbEbIb e _ | .andEbIb e _
    | .subEbIb e _ | .xorEbIb e _ | .addEbIb82 e _ | .orEbIb82 e _ | .adcEbIb82 e _ | .sbbEbIb82 e _
    | .andEbIb82 e _ | .subEbIb82 e _ | .xorEbIb82 e _ | .xchgEbGb e _ | .movEbGb e _ | .movEbIb e _
    | .notEb e | .negEb e | .incEb e | .decEb e | .rolEb1 e | .rorEb1 e | .rclEb1 e | .rcrEb1 e
    | .shlEb1 e | .shrEb1 e | .sarEb1 e => rmBytes8 s e
  | .addEvGv e _ | .orEvGv e _ | .adcEvGv e _ | .sbbEvGv e _ | .andEvGv e _ | .subEvGv e _
    | .xorEvGv e _ | .addEvIv e _ | .orEvIv e _ | .adcEvIv e _ | .sbbEvIv e _ | .andEvIv e _
    | .subEvIv e _ | .xorEvIv e _ | .addEvIb e _ | .orEvIb e _ | .adcEvIb e _ | .sbbEvIb e _
    | .andEvIb e _ | .subEvIb e _ | .xorEvIb e _ | .xchgEvGv e _ | .movEvGv e _ | .movEvIv e _
    | .movEwSw e _ | .notEv e | .negEv e | .incEv e | .decEv e | .popEv e | .rolEv1 e | .rorEv1 e
    | .rclEv1 e | .rcrEv1 e | .shlEv1 e | .shrEv1 e | .sarEv1 e => rmBytes16 s e
  | .rolEbCl e | .rorEbCl e | .rclEbCl e | .rcrEbCl e | .shlEbCl e | .shrEbCl e | .sarEbCl e =>
    if (s.reg8 .cl).toNat = 0 then [] else rmBytes8 s e
  | .rolEvCl e | .rorEvCl e | .rclEvCl e | .rcrEvCl e | .shlEvCl e | .shrEvCl e | .sarEvCl e =>
    if (s.reg8 .cl).toNat = 0 then [] else rmBytes16 s e
  | .movObAl off => [phys (segOr s .ds) off]
  | .movOvAx off => wordBytes (segOr s .ds) off
  | .pushAx | .pushCx | .pushDx | .pushBx | .pushSp | .pushBp | .pushSi | .pushDi | .pushEs | .pushCs
    | .pushSs | .pushDs | .pushEv _ | .pushf | .callJv _ | .callEv _ => pushedBytes s 1
  | .callAp _ _ | .callMp _ => pushedBytes s 2
  | .intIb _ | .int3 => pushedBytes s 3
  | .into => if ovf s.flags then pushedBytes s 3 else []
  | .divEb e => if divideErrors s (.divEb e) then pushedBytes s 3 else []
  | .divEv e => if divideErrors s (.divEv e) then pushedBytes s 3 else []
  | .idivEb e => if divideErrors s (.idivEb e) then pushedBytes s 3 else []
  | .idivEv e => if divideErrors s (.idivEv e) then pushedBytes s 3 else []
  | .aamIb v => if divideErrors s (.aamIb v) then pushedBytes s 3 else []
  | .movsb | .stosb => if skips s then [] else [phys s.segs.es s.regs.di]
  | .movsw | .stosw => if skips s then [] else wordBytes s.segs.es s.regs.di
  | .addGbEb _ _ | .addGvEv _ _ | .addAlIb _ | .addAxIv _ | .orGbEb _ _ | .orGvEv _ _ | .orAlIb _ | .orAxIv _
    | .adcGbEb _ _ | .adcGvEv _ _ | .adcAlIb _ | .adcAxIv _ | .sbbGbEb _ _ | .sbbGvEv _ _ | .sbbAlIb _ | .sbbAxIv _
    | .andGbEb _ _ | .andGvEv _ _ | .andAlIb _ | .andAxIv _ | .subGbEb _ _ | .subGvEv _ _ | .subAlIb _ | .subAxIv _
    | .xorGbEb _ _ | .xorGvEv _ _ | .xorAlIb _ | .xorAxIv _ | .cmpEbGb _ _ | .cmpEvGv _ _ | .cmpGbEb _ _
    | .cmpGvEv _ _ | .cmpAlIb _ | .cmpAxIv _ | .joJb _ | .jnoJb _ | .jbJb _ | .jnbJb _ | .jzJb _ | .jnzJb _
    | .jbeJb _ | .jaJb _ | .jsJb _ | .jnsJb _ | .jpJb _ | .jnpJb _ | .jlJb _ | .jgeJb _ | .jleJb _ | .jgJb _
    | .cmpEbIb _ _ | .cmpEvIv _ _ | .cmpEbIb82 _ _ | .cmpEvIb _ _ | .testEbGb _ _ | .testEvGv _ _ | .movGbEb _ _
    | .movGvEv _ _ | .leaGvM _ _ | .movSwEwEs _ | .movSwEwSsDs _ _ | .movAlOb _ | .movAxOv _ | .testAlIb _
    | .testAxIv _ | .movAlIb _ | .movAxIv _ | .movClIb _ | .movCxIv _ | .movDlIb _ | .movDxIv _ | .movBlIb _
    | .movBxIv _ | .movAhIb _ | .movSpIv _ | .movChIb _ | .movBpIv _ | .movDhIb _ | .movSiIv _ | .movBhIb _
    | .movDiIv _ | .retIw _ | .lesGvMp _ _ | .ldsGvMp _ _ | .retfIw _ | .aadIb _ | .esc0Ev _ _ | .esc1Ev _ _
    | .esc2Ev _ _ | .esc3Ev _ _ | .esc4Ev _ _ | .esc5Ev _ _ | .esc6Ev _ _ | .esc7Ev _ _ | .loopnzJb _ | .loopzJb _
    | .loopJb _ | .jcxzJb _ | .inAlIb _ | .inAxIb _ | .outIbAl _ | .outIbAx _ | .jmpJv _ | .jmpAp _ _ | .jmpJb _
    | .testEbIb _ _ | .mulEb _ | .imulEb _ | .testEvIv _ _ | .mulEv _ | .imulEv _ | .callbackIw _ _ | .jmpEv _
    | .jmpMp _ | .ud _ _ | .popEs | .popSs | .popDs | .daa | .das | .aaa | .aas | .segEs | .segCs | .segSs | .segDs
    | .incAx | .decAx | .popAx | .incCx | .decCx | .popCx | .incDx | .decDx | .popDx | .incBx | .decBx | .popBx
    | .incSp | .decSp | .popSp | .incBp | .decBp | .popBp | .incSi | .decSi | .popSi | .incDi | .decDi | .popDi
    | .nop | .xchgCxAx | .xchgDxAx | .xchgBxAx | .xchgSpAx | .xchgBpAx | .xchgSiAx | .xchgDiAx | .cbw | .cwd | .wait
    | .popf | .sahf | .lahf | .cmpsb | .cmpsw | .lodsb | .lodsw | .scasb | .scasw | .ret | .retf | .iret | .xlat
    | .inAlDx | .inAxDx | .outDxAl | .outDxAx | .lock | .repne | .rep | .hlt | .cmc | .clc | .stc | .cli | .sti
    | .cld | .std => []

/-- The register an 8-bit `rm` operand names. -/
def rmReg8 : RM8 → List Reg8
  | .reg r => [r]
  | .mem _ => []

/-- The register a 16-bit `rm` operand names. -/
def rmReg16 : RM16 → List Reg16
  | .reg r => [r]
  | .mem _ => []

/-- CX, where a string instruction repeats and runs an iteration (R551), and the index registers it moves. -/
def stringRegs (s : State) (l : List Reg16) : List Reg16 :=
  if skips s then [] else if s.tr.rep.isSome then .cx :: l else l

/-- The 8-bit registers an instruction writes as such. -/
def byteRegs (s : State) : Instr → List Reg8
  | .addEbGb e _ | .orEbGb e _ | .adcEbGb e _ | .sbbEbGb e _ | .andEbGb e _ | .subEbGb e _
    | .xorEbGb e _ | .addEbIb e _ | .orEbIb e _ | .adcEbIb e _ | .sbbEbIb e _ | .andEbIb e _
    | .subEbIb e _ | .xorEbIb e _ | .addEbIb82 e _ | .orEbIb82 e _ | .adcEbIb82 e _ | .sbbEbIb82 e _
    | .andEbIb82 e _ | .subEbIb82 e _ | .xorEbIb82 e _ | .movEbGb e _ | .movEbIb e _ | .notEb e
    | .negEb e | .incEb e | .decEb e | .rolEb1 e | .rorEb1 e | .rclEb1 e | .rcrEb1 e | .shlEb1 e
    | .shrEb1 e | .sarEb1 e | .rolEbCl e | .rorEbCl e | .rclEbCl e | .rcrEbCl e | .shlEbCl e
    | .shrEbCl e | .sarEbCl e => rmReg8 e
  | .addGbEb _ g | .orGbEb _ g | .adcGbEb _ g | .sbbGbEb _ g | .andGbEb _ g | .subGbEb _ g
    | .xorGbEb _ g | .movGbEb _ g => [g]
  | .addAlIb _ | .orAlIb _ | .adcAlIb _ | .sbbAlIb _ | .andAlIb _ | .subAlIb _ | .xorAlIb _
    | .movAlIb _ | .movAlOb _ | .xlat | .inAlIb _ | .inAlDx | .daa | .das => [.al]
  | .movClIb _ => [.cl]
  | .movDlIb _ => [.dl]
  | .movBlIb _ => [.bl]
  | .movAhIb _ => [.ah]
  | .movChIb _ => [.ch]
  | .movDhIb _ => [.dh]
  | .movBhIb _ => [.bh]
  | .xchgEbGb e g => g :: rmReg8 e
  | .lahf => [.ah]
  | .aaa | .aas | .aadIb _ | .inAxIb _ | .inAxDx => [.al, .ah]
  | .lodsb => if skips s then [] else [.al]
  | .divEb e => if divideErrors s (.divEb e) then [] else [.al, .ah]
  | .idivEb e => if divideErrors s (.idivEb e) then [] else [.al, .ah]
  | .aamIb v => if divideErrors s (.aamIb v) then [] else [.al, .ah]
  | .addEvGv _ _ | .addGvEv _ _ | .addAxIv _ | .orEvGv _ _ | .orGvEv _ _ | .orAxIv _ | .adcEvGv _ _ | .adcGvEv _ _
    | .adcAxIv _ | .sbbEvGv _ _ | .sbbGvEv _ _ | .sbbAxIv _ | .andEvGv _ _ | .andGvEv _ _ | .andAxIv _ | .subEvGv _ _
    | .subGvEv _ _ | .subAxIv _ | .xorEvGv _ _ | .xorGvEv _ _ | .xorAxIv _ | .cmpEbGb _ _ | .cmpEvGv _ _
    | .cmpGbEb _ _ | .cmpGvEv _ _ | .cmpAlIb _ | .cmpAxIv _ | .joJb _ | .jnoJb _ | .jbJb _ | .jnbJb _ | .jzJb _
    | .jnzJb _ | .jbeJb _ | .jaJb _ | .jsJb _ | .jnsJb _ | .jpJb _ | .jnpJb _ | .jlJb _ | .jgeJb _ | .jleJb _
    | .jgJb _ | .cmpEbIb _ _ | .addEvIv _ _ | .orEvIv _ _ | .adcEvIv _ _ | .sbbEvIv _ _ | .andEvIv _ _ | .subEvIv _ _
    | .xorEvIv _ _ | .cmpEvIv _ _ | .cmpEbIb82 _ _ | .addEvIb _ _ | .orEvIb _ _ | .adcEvIb _ _ | .sbbEvIb _ _
    | .andEvIb _ _ | .subEvIb _ _ | .xorEvIb _ _ | .cmpEvIb _ _ | .testEbGb _ _ | .testEvGv _ _ | .xchgEvGv _ _
    | .movEvGv _ _ | .movGvEv _ _ | .movEwSw _ _ | .leaGvM _ _ | .movSwEwEs _ | .movSwEwSsDs _ _ | .popEv _
    | .callAp _ _ | .movAxOv _ | .movObAl _ | .movOvAx _ | .testAlIb _ | .testAxIv _ | .movAxIv _ | .movCxIv _
    | .movDxIv _ | .movBxIv _ | .movSpIv _ | .movBpIv _ | .movSiIv _ | .movDiIv _ | .retIw _ | .lesGvMp _ _
    | .ldsGvMp _ _ | .movEvIv _ _ | .retfIw _ | .intIb _ | .rolEv1 _ | .rorEv1 _ | .rclEv1 _ | .rcrEv1 _ | .shlEv1 _
    | .shrEv1 _ | .sarEv1 _ | .rolEvCl _ | .rorEvCl _ | .rclEvCl _ | .rcrEvCl _ | .shlEvCl _ | .shrEvCl _
    | .sarEvCl _ | .esc0Ev _ _ | .esc1Ev _ _ | .esc2Ev _ _ | .esc3Ev _ _ | .esc4Ev _ _ | .esc5Ev _ _ | .esc6Ev _ _
    | .esc7Ev _ _ | .loopnzJb _ | .loopzJb _ | .loopJb _ | .jcxzJb _ | .outIbAl _ | .outIbAx _ | .callJv _ | .jmpJv _
    | .jmpAp _ _ | .jmpJb _ | .testEbIb _ _ | .mulEb _ | .imulEb _ | .testEvIv _ _ | .notEv _ | .negEv _ | .mulEv _
    | .imulEv _ | .divEv _ | .idivEv _ | .callbackIw _ _ | .incEv _ | .decEv _ | .callEv _ | .callMp _ | .jmpEv _
    | .jmpMp _ | .pushEv _ | .ud _ _ | .pushEs | .popEs | .pushCs | .pushSs | .popSs | .pushDs | .popDs | .segEs
    | .segCs | .segSs | .segDs | .incAx | .decAx | .pushAx | .popAx | .incCx | .decCx | .pushCx | .popCx | .incDx
    | .decDx | .pushDx | .popDx | .incBx | .decBx | .pushBx | .popBx | .incSp | .decSp | .pushSp | .popSp | .incBp
    | .decBp | .pushBp | .popBp | .incSi | .decSi | .pushSi | .popSi | .incDi | .decDi | .pushDi | .popDi | .nop
    | .xchgCxAx | .xchgDxAx | .xchgBxAx | .xchgSpAx | .xchgBpAx | .xchgSiAx | .xchgDiAx | .cbw | .cwd | .wait
    | .pushf | .popf | .sahf | .movsb | .movsw | .cmpsb | .cmpsw | .stosb | .stosw | .lodsw | .scasb | .scasw | .ret
    | .retf | .int3 | .into | .iret | .outDxAl | .outDxAx | .lock | .repne | .rep | .hlt | .cmc | .clc | .stc | .cli
    | .sti | .cld | .std => []

/-- The 16-bit registers an instruction writes: its destination, and those it updates on the way (SP of every stack
operation, the index registers and CX of a string instruction, CX of a loop). -/
def wordRegs (s : State) : Instr → List Reg16
  | .addEvGv e _ | .orEvGv e _ | .adcEvGv e _ | .sbbEvGv e _ | .andEvGv e _ | .subEvGv e _
    | .xorEvGv e _ | .addEvIv e _ | .orEvIv e _ | .adcEvIv e _ | .sbbEvIv e _ | .andEvIv e _
    | .subEvIv e _ | .xorEvIv e _ | .addEvIb e _ | .orEvIb e _ | .adcEvIb e _ | .sbbEvIb e _
    | .andEvIb e _ | .subEvIb e _ | .xorEvIb e _ | .movEvGv e _ | .movEvIv e _ | .movEwSw e _
    | .notEv e | .negEv e | .incEv e | .decEv e | .rolEv1 e | .rorEv1 e | .rclEv1 e | .rcrEv1 e
    | .shlEv1 e | .shrEv1 e | .sarEv1 e | .rolEvCl e | .rorEvCl e | .rclEvCl e | .rcrEvCl e
    | .shlEvCl e | .shrEvCl e | .sarEvCl e => rmReg16 e
  | .addGvEv _ g | .orGvEv _ g | .adcGvEv _ g | .sbbGvEv _ g | .andGvEv _ g | .subGvEv _ g
    | .xorGvEv _ g | .movGvEv _ g | .leaGvM _ g | .ldsGvMp _ g | .lesGvMp _ g => [g]
  | .addAxIv _ | .orAxIv _ | .adcAxIv _ | .sbbAxIv _ | .andAxIv _ | .subAxIv _ | .xorAxIv _
    | .movAxIv _ | .movAxOv _ | .incAx | .decAx | .cbw | .mulEb _ | .imulEb _ => [.ax]
  | .movCxIv _ | .incCx | .decCx => [.cx]
  | .movDxIv _ | .incDx | .decDx => [.dx]
  | .movBxIv _ | .incBx | .decBx => [.bx]
  | .movSpIv _ | .incSp | .decSp => [.sp]
  | .movBpIv _ | .incBp | .decBp => [.bp]
  | .movSiIv _ | .incSi | .decSi => [.si]
  | .movDiIv _ | .incDi | .decDi => [.di]
  | .popAx => [.sp, .ax]
  | .popCx => [.sp, .cx]
  | .popDx => [.sp, .dx]
  | .popBx => [.sp, .bx]
  | .popSp => [.sp]
  | .popBp => [.sp, .bp]
  | .popSi => [.sp, .si]
  | .popDi => [.sp, .di]
  | .xchgCxAx => [.ax, .cx]
  | .xchgDxAx => [.ax, .dx]
  | .xchgBxAx => [.ax, .bx]
  | .xchgSpAx => [.ax, .sp]
  | .xchgBpAx => [.ax, .bp]
  | .xchgSiAx => [.ax, .si]
  | .xchgDiAx => [.ax, .di]
  | .popEv e => .sp :: rmReg16 e
  | .xchgEvGv e g => g :: rmReg16 e
  | .mulEv _ | .imulEv _ => [.ax, .dx]
  | .cwd => [.dx]
  | .divEb e => if divideErrors s (.divEb e) then [.sp] else []
  | .idivEb e => if divideErrors s (.idivEb e) then [.sp] else []
  | .aamIb v => if divideErrors s (.aamIb v) then [.sp] else []
  | .divEv e => if divideErrors s (.divEv e) then [.sp] else [.ax, .dx]
  | .idivEv e => if divideErrors s (.idivEv e) then [.sp] else [.ax, .dx]
  | .pushAx | .pushCx | .pushDx | .pushBx | .pushSp | .pushBp | .pushSi | .pushDi | .pushEs | .pushCs
    | .pushSs | .pushDs | .pushEv _ | .pushf | .callJv _ | .callEv _ | .callAp _ _ | .callMp _ | .ret
    | .retIw _ | .retf | .retfIw _ | .iret | .intIb _ | .int3 | .into | .popf | .popEs | .popSs
    | .popDs => [.sp]
  | .loopJb _ | .loopzJb _ | .loopnzJb _ => [.cx]
  | .movsb | .movsw | .cmpsb | .cmpsw => stringRegs s [.si, .di]
  | .scasb | .scasw | .stosb | .stosw => stringRegs s [.di]
  | .lodsb => stringRegs s [.si]
  | .lodsw => stringRegs s [.si, .ax]
  | .addEbGb _ _ | .addGbEb _ _ | .addAlIb _ | .orEbGb _ _ | .orGbEb _ _ | .orAlIb _ | .adcEbGb _ _ | .adcGbEb _ _
    | .adcAlIb _ | .sbbEbGb _ _ | .sbbGbEb _ _ | .sbbAlIb _ | .andEbGb _ _ | .andGbEb _ _ | .andAlIb _ | .subEbGb _ _
    | .subGbEb _ _ | .subAlIb _ | .xorEbGb _ _ | .xorGbEb _ _ | .xorAlIb _ | .cmpEbGb _ _ | .cmpEvGv _ _
    | .cmpGbEb _ _ | .cmpGvEv _ _ | .cmpAlIb _ | .cmpAxIv _ | .joJb _ | .jnoJb _ | .jbJb _ | .jnbJb _ | .jzJb _
    | .jnzJb _ | .jbeJb _ | .jaJb _ | .jsJb _ | .jnsJb _ | .jpJb _ | .jnpJb _ | .jlJb _ | .jgeJb _ | .jleJb _
    | .jgJb _ | .addEbIb _ _ | .orEbIb _ _ | .adcEbIb _ _ | .sbbEbIb _ _ | .andEbIb _ _ | .subEbIb _ _ | .xorEbIb _ _
    | .cmpEbIb _ _ | .cmpEvIv _ _ | .addEbIb82 _ _ | .orEbIb82 _ _ | .adcEbIb82 _ _ | .sbbEbIb82 _ _ | .andEbIb82 _ _
    | .subEbIb82 _ _ | .xorEbIb82 _ _ | .cmpEbIb82 _ _ | .cmpEvIb _ _ | .testEbGb _ _ | .testEvGv _ _ | .xchgEbGb _ _
    | .movEbGb _ _ | .movGbEb _ _ | .movSwEwEs _ | .movSwEwSsDs _ _ | .movAlOb _ | .movObAl _ | .movOvAx _
    | .testAlIb _ | .testAxIv _ | .movAlIb _ | .movClIb _ | .movDlIb _ | .movBlIb _ | .movAhIb _ | .movChIb _
    | .movDhIb _ | .movBhIb _ | .movEbIb _ _ | .rolEb1 _ | .rorEb1 _ | .rclEb1 _ | .rcrEb1 _ | .shlEb1 _ | .shrEb1 _
    | .sarEb1 _ | .rolEbCl _ | .rorEbCl _ | .rclEbCl _ | .rcrEbCl _ | .shlEbCl _ | .shrEbCl _ | .sarEbCl _ | .aadIb _
    | .esc0Ev _ _ | .esc1Ev _ _ | .esc2Ev _ _ | .esc3Ev _ _ | .esc4Ev _ _ | .esc5Ev _ _ | .esc6Ev _ _ | .esc7Ev _ _
    | .jcxzJb _ | .inAlIb _ | .inAxIb _ | .outIbAl _ | .outIbAx _ | .jmpJv _ | .jmpAp _ _ | .jmpJb _ | .testEbIb _ _
    | .notEb _ | .negEb _ | .testEvIv _ _ | .incEb _ | .decEb _ | .callbackIw _ _ | .jmpEv _ | .jmpMp _ | .ud _ _
    | .daa | .das | .aaa | .aas | .segEs | .segCs | .segSs | .segDs | .nop | .wait | .sahf | .lahf | .xlat | .inAlDx
    | .inAxDx | .outDxAl | .outDxAx | .lock | .repne | .rep | .hlt | .cmc | .clc | .stc | .cli | .sti | .cld | .std => []

/-- The segment registers an instruction writes. -/
def segRegs (s : State) : Instr → List SegReg
  | .movSwEwEs _ | .popEs | .lesGvMp _ _ => [.es]
  | .movSwEwSsDs _ sr => [sr]
  | .popSs => [.ss]
  | .popDs | .ldsGvMp _ _ => [.ds]
  | .jmpAp _ _ | .jmpMp _ | .callAp _ _ | .callMp _ | .retf | .retfIw _ | .iret | .intIb _ | .int3 => [.cs]
  | .into => if ovf s.flags then [.cs] else []
  | .divEb e => if divideErrors s (.divEb e) then [.cs] else []
  | .divEv e => if divideErrors s (.divEv e) then [.cs] else []
  | .idivEb e => if divideErrors s (.idivEb e) then [.cs] else []
  | .idivEv e => if divideErrors s (.idivEv e) then [.cs] else []
  | .aamIb v => if divideErrors s (.aamIb v) then [.cs] else []
  | .addEbGb _ _ | .addEvGv _ _ | .addGbEb _ _ | .addGvEv _ _ | .addAlIb _ | .addAxIv _ | .orEbGb _ _ | .orEvGv _ _
    | .orGbEb _ _ | .orGvEv _ _ | .orAlIb _ | .orAxIv _ | .adcEbGb _ _ | .adcEvGv _ _ | .adcGbEb _ _ | .adcGvEv _ _
    | .adcAlIb _ | .adcAxIv _ | .sbbEbGb _ _ | .sbbEvGv _ _ | .sbbGbEb _ _ | .sbbGvEv _ _ | .sbbAlIb _ | .sbbAxIv _
    | .andEbGb _ _ | .andEvGv _ _ | .andGbEb _ _ | .andGvEv _ _ | .andAlIb _ | .andAxIv _ | .subEbGb _ _
    | .subEvGv _ _ | .subGbEb _ _ | .subGvEv _ _ | .subAlIb _ | .subAxIv _ | .xorEbGb _ _ | .xorEvGv _ _
    | .xorGbEb _ _ | .xorGvEv _ _ | .xorAlIb _ | .xorAxIv _ | .cmpEbGb _ _ | .cmpEvGv _ _ | .cmpGbEb _ _
    | .cmpGvEv _ _ | .cmpAlIb _ | .cmpAxIv _ | .joJb _ | .jnoJb _ | .jbJb _ | .jnbJb _ | .jzJb _ | .jnzJb _
    | .jbeJb _ | .jaJb _ | .jsJb _ | .jnsJb _ | .jpJb _ | .jnpJb _ | .jlJb _ | .jgeJb _ | .jleJb _ | .jgJb _
    | .addEbIb _ _ | .orEbIb _ _ | .adcEbIb _ _ | .sbbEbIb _ _ | .andEbIb _ _ | .subEbIb _ _ | .xorEbIb _ _
    | .cmpEbIb _ _ | .addEvIv _ _ | .orEvIv _ _ | .adcEvIv _ _ | .sbbEvIv _ _ | .andEvIv _ _ | .subEvIv _ _
    | .xorEvIv _ _ | .cmpEvIv _ _ | .addEbIb82 _ _ | .orEbIb82 _ _ | .adcEbIb82 _ _ | .sbbEbIb82 _ _ | .andEbIb82 _ _
    | .subEbIb82 _ _ | .xorEbIb82 _ _ | .cmpEbIb82 _ _ | .addEvIb _ _ | .orEvIb _ _ | .adcEvIb _ _ | .sbbEvIb _ _
    | .andEvIb _ _ | .subEvIb _ _ | .xorEvIb _ _ | .cmpEvIb _ _ | .testEbGb _ _ | .testEvGv _ _ | .xchgEbGb _ _
    | .xchgEvGv _ _ | .movEbGb _ _ | .movEvGv _ _ | .movGbEb _ _ | .movGvEv _ _ | .movEwSw _ _ | .leaGvM _ _
    | .popEv _ | .movAlOb _ | .movAxOv _ | .movObAl _ | .movOvAx _ | .testAlIb _ | .testAxIv _ | .movAlIb _
    | .movAxIv _ | .movClIb _ | .movCxIv _ | .movDlIb _ | .movDxIv _ | .movBlIb _ | .movBxIv _ | .movAhIb _
    | .movSpIv _ | .movChIb _ | .movBpIv _ | .movDhIb _ | .movSiIv _ | .movBhIb _ | .movDiIv _ | .retIw _
    | .movEbIb _ _ | .movEvIv _ _ | .rolEb1 _ | .rorEb1 _ | .rclEb1 _ | .rcrEb1 _ | .shlEb1 _ | .shrEb1 _ | .sarEb1 _
    | .rolEv1 _ | .rorEv1 _ | .rclEv1 _ | .rcrEv1 _ | .shlEv1 _ | .shrEv1 _ | .sarEv1 _ | .rolEbCl _ | .rorEbCl _
    | .rclEbCl _ | .rcrEbCl _ | .shlEbCl _ | .shrEbCl _ | .sarEbCl _ | .rolEvCl _ | .rorEvCl _ | .rclEvCl _
    | .rcrEvCl _ | .shlEvCl _ | .shrEvCl _ | .sarEvCl _ | .aadIb _ | .esc0Ev _ _ | .esc1Ev _ _ | .esc2Ev _ _
    | .esc3Ev _ _ | .esc4Ev _ _ | .esc5Ev _ _ | .esc6Ev _ _ | .esc7Ev _ _ | .loopnzJb _ | .loopzJb _ | .loopJb _
    | .jcxzJb _ | .inAlIb _ | .inAxIb _ | .outIbAl _ | .outIbAx _ | .callJv _ | .jmpJv _ | .jmpJb _ | .testEbIb _ _
    | .notEb _ | .negEb _ | .mulEb _ | .imulEb _ | .testEvIv _ _ | .notEv _ | .negEv _ | .mulEv _ | .imulEv _
    | .incEb _ | .decEb _ | .callbackIw _ _ | .incEv _ | .decEv _ | .callEv _ | .jmpEv _ | .pushEv _ | .ud _ _
    | .pushEs | .pushCs | .pushSs | .pushDs | .daa | .das | .aaa | .aas | .segEs | .segCs | .segSs | .segDs | .incAx
    | .decAx | .pushAx | .popAx | .incCx | .decCx | .pushCx | .popCx | .incDx | .decDx | .pushDx | .popDx | .incBx
    | .decBx | .pushBx | .popBx | .incSp | .decSp | .pushSp | .popSp | .incBp | .decBp | .pushBp | .popBp | .incSi
    | .decSi | .pushSi | .popSi | .incDi | .decDi | .pushDi | .popDi | .nop | .xchgCxAx | .xchgDxAx | .xchgBxAx
    | .xchgSpAx | .xchgBpAx | .xchgSiAx | .xchgDiAx | .cbw | .cwd | .wait | .pushf | .popf | .sahf | .lahf | .movsb
    | .movsw | .cmpsb | .cmpsw | .stosb | .stosw | .lodsb | .lodsw | .scasb | .scasw | .ret | .xlat | .inAlDx
    | .inAxDx | .outDxAl | .outDxAx | .lock | .repne | .rep | .hlt | .cmc | .clc | .stc | .cli | .sti | .cld | .std => []

/-- The bits of FLAGS an instruction may change. -/
def flagBits (s : State) : Instr → List Nat
  | .addEbGb _ _ | .addGbEb _ _ | .addAlIb _ | .addEbIb _ _ | .addEbIb82 _ _ | .addEvGv _ _
    | .addGvEv _ _ | .addAxIv _ | .addEvIv _ _ | .addEvIb _ _ | .orEbGb _ _ | .orGbEb _ _ | .orAlIb _
    | .orEbIb _ _ | .orEbIb82 _ _ | .orEvGv _ _ | .orGvEv _ _ | .orAxIv _ | .orEvIv _ _ | .orEvIb _ _
    | .adcEbGb _ _ | .adcGbEb _ _ | .adcAlIb _ | .adcEbIb _ _ | .adcEbIb82 _ _ | .adcEvGv _ _
    | .adcGvEv _ _ | .adcAxIv _ | .adcEvIv _ _ | .adcEvIb _ _ | .sbbEbGb _ _ | .sbbGbEb _ _
    | .sbbAlIb _ | .sbbEbIb _ _ | .sbbEbIb82 _ _ | .sbbEvGv _ _ | .sbbGvEv _ _ | .sbbAxIv _
    | .sbbEvIv _ _ | .sbbEvIb _ _ | .andEbGb _ _ | .andGbEb _ _ | .andAlIb _ | .andEbIb _ _
    | .andEbIb82 _ _ | .andEvGv _ _ | .andGvEv _ _ | .andAxIv _ | .andEvIv _ _ | .andEvIb _ _
    | .subEbGb _ _ | .subGbEb _ _ | .subAlIb _ | .subEbIb _ _ | .subEbIb82 _ _ | .subEvGv _ _
    | .subGvEv _ _ | .subAxIv _ | .subEvIv _ _ | .subEvIb _ _ | .xorEbGb _ _ | .xorGbEb _ _
    | .xorAlIb _ | .xorEbIb _ _ | .xorEbIb82 _ _ | .xorEvGv _ _ | .xorGvEv _ _ | .xorAxIv _
    | .xorEvIv _ _ | .xorEvIb _ _ | .cmpEbGb _ _ | .cmpGbEb _ _ | .cmpAlIb _ | .cmpEbIb _ _
    | .cmpEbIb82 _ _ | .cmpEvGv _ _ | .cmpGvEv _ _ | .cmpAxIv _ | .cmpEvIv _ _ | .cmpEvIb _ _
    | .testEbGb _ _ | .testEvGv _ _ | .testAlIb _ | .testAxIv _ | .testEbIb _ _ | .testEvIv _ _
    | .negEb _ | .negEv _ | .mulEb _ | .mulEv _ | .imulEb _ | .imulEv _ | .aaa | .aas | .daa | .das
    | .aadIb _ | .cmpsb | .cmpsw | .scasb | .scasw | .shlEb1 _ | .shlEv1 _ | .shlEbCl _ | .shlEvCl _
    | .shrEb1 _ | .shrEv1 _ | .shrEbCl _ | .shrEvCl _ | .sarEb1 _ | .sarEv1 _ | .sarEbCl _ | .sarEvCl _ =>
    statusBits
  | .incAx | .incCx | .incDx | .incBx | .incSp | .incBp | .incSi | .incDi | .decAx | .decCx | .decDx
    | .decBx | .decSp | .decBp | .decSi | .decDi | .incEb _ | .incEv _ | .decEb _ | .decEv _ => [2, 4, 6, 7, 11]
  | .rolEb1 _ | .rolEv1 _ | .rolEbCl _ | .rolEvCl _ | .rorEb1 _ | .rorEv1 _ | .rorEbCl _ | .rorEvCl _
    | .rclEb1 _ | .rclEv1 _ | .rclEbCl _ | .rclEvCl _ | .rcrEb1 _ | .rcrEv1 _ | .rcrEbCl _ | .rcrEvCl _ => [0, 11]
  | .divEb e => if divideErrors s (.divEb e) then statusBits ++ [8, 9] else statusBits
  | .divEv e => if divideErrors s (.divEv e) then statusBits ++ [8, 9] else statusBits
  | .idivEb e => if divideErrors s (.idivEb e) then statusBits ++ [8, 9] else statusBits
  | .idivEv e => if divideErrors s (.idivEv e) then statusBits ++ [8, 9] else statusBits
  | .aamIb v => if divideErrors s (.aamIb v) then statusBits ++ [8, 9] else statusBits
  | .clc | .stc | .cmc => [0]
  | .cld | .std => [10]
  | .cli | .sti => [9]
  | .sahf => [0, 2, 4, 6, 7]
  | .intIb _ | .int3 => [8, 9]
  | .into => if ovf s.flags then [8, 9] else []
  | .popf | .iret => List.range 16
  | .joJb _ | .jnoJb _ | .jbJb _ | .jnbJb _ | .jzJb _ | .jnzJb _ | .jbeJb _ | .jaJb _ | .jsJb _ | .jnsJb _ | .jpJb _
    | .jnpJb _ | .jlJb _ | .jgeJb _ | .jleJb _ | .jgJb _ | .xchgEbGb _ _ | .xchgEvGv _ _ | .movEbGb _ _
    | .movEvGv _ _ | .movGbEb _ _ | .movGvEv _ _ | .movEwSw _ _ | .leaGvM _ _ | .movSwEwEs _ | .movSwEwSsDs _ _
    | .popEv _ | .callAp _ _ | .movAlOb _ | .movAxOv _ | .movObAl _ | .movOvAx _ | .movAlIb _ | .movAxIv _
    | .movClIb _ | .movCxIv _ | .movDlIb _ | .movDxIv _ | .movBlIb _ | .movBxIv _ | .movAhIb _ | .movSpIv _
    | .movChIb _ | .movBpIv _ | .movDhIb _ | .movSiIv _ | .movBhIb _ | .movDiIv _ | .retIw _ | .lesGvMp _ _
    | .ldsGvMp _ _ | .movEbIb _ _ | .movEvIv _ _ | .retfIw _ | .esc0Ev _ _ | .esc1Ev _ _ | .esc2Ev _ _ | .esc3Ev _ _
    | .esc4Ev _ _ | .esc5Ev _ _ | .esc6Ev _ _ | .esc7Ev _ _ | .loopnzJb _ | .loopzJb _ | .loopJb _ | .jcxzJb _
    | .inAlIb _ | .inAxIb _ | .outIbAl _ | .outIbAx _ | .callJv _ | .jmpJv _ | .jmpAp _ _ | .jmpJb _ | .notEb _
    | .notEv _ | .callbackIw _ _ | .callEv _ | .callMp _ | .jmpEv _ | .jmpMp _ | .pushEv _ | .ud _ _ | .pushEs
    | .popEs | .pushCs | .pushSs | .popSs | .pushDs | .popDs | .segEs | .segCs | .segSs | .segDs | .pushAx | .popAx
    | .pushCx | .popCx | .pushDx | .popDx | .pushBx | .popBx | .pushSp | .popSp | .pushBp | .popBp | .pushSi | .popSi
    | .pushDi | .popDi | .nop | .xchgCxAx | .xchgDxAx | .xchgBxAx | .xchgSpAx | .xchgBpAx | .xchgSiAx | .xchgDiAx
    | .cbw | .cwd | .wait | .pushf | .lahf | .movsb | .movsw | .stosb | .stosw | .lodsb | .lodsw | .ret | .retf
    | .xlat | .inAlDx | .inAxDx | .outDxAl | .outDxAx | .lock | .repne | .rep | .hlt => []

/-- R806: the instruction sets the interrupt-delay flag. -/
def setsDelay (s : State) : Instr → Bool
  | .movSwEwEs _ | .movSwEwSsDs _ _ | .popEs | .popSs | .popDs | .sti => true
  | .iret => s.params.iretDelay
  | _ => false

/-- R160: the instruction accesses a port. -/
def accessesPort : Instr → Bool
  | .inAlIb _ | .inAxIb _ | .inAlDx | .inAxDx | .outIbAl _ | .outIbAx _ | .outDxAl | .outDxAx => true
  | _ => false

def isCallback : Instr → Bool
  | .callbackIw _ _ => true
  | _ => false

def isUd : Instr → Bool
  | .ud _ _ => true
  | _ => false

/-! ### Shifts and rotates in closed form (R506 to R513) -/

/-- Bit `j` of the `w+1`-bit value `CF:v` that RCL and RCR rotate. -/
def throughCarry {w : Nat} (v : BitVec w) (c : Bool) (j : Nat) : Bool := if j = w then c else v.getLsbD j

/-- The result `r` and carry `c'` of a count `k ≥ 1` on the operand `v` and carry `c`. -/
def ShiftResult {w : Nat} (op : ShiftOp) (k : Nat) (v : BitVec w) (c : Bool) (r : BitVec w) (c' : Bool) : Prop :=
  match op with
  | .rol => (∀ j, j < w → r.getLsbD j = v.getLsbD ((j + (w - k % w)) % w)) ∧ c' = r.getLsbD 0
  | .ror => (∀ j, j < w → r.getLsbD j = v.getLsbD ((j + k) % w)) ∧ c' = r.getLsbD (w - 1)
  | .rcl => ∀ j, j ≤ w → throughCarry r c' j = throughCarry v c ((j + (w + 1 - k % (w + 1))) % (w + 1))
  | .rcr => ∀ j, j ≤ w → throughCarry r c' j = throughCarry v c ((j + k) % (w + 1))
  | .shl => r.toNat = v.toNat * 2 ^ k % 2 ^ w ∧ c' = decide (v.toNat * 2 ^ k / 2 ^ w % 2 = 1)
  | .shr => r.toNat = v.toNat / 2 ^ k ∧ c' = decide (v.toNat / 2 ^ (k - 1) % 2 = 1)
  | .sar => r.toInt = v.toInt / 2 ^ k ∧ c' = decide (v.toInt / 2 ^ (k - 1) % 2 = 1)

/-- OF after a count of 1. -/
def ShiftOverflow {w : Nat} (op : ShiftOp) (v r : BitVec w) (c' : Bool) : Bool :=
  match op with
  | .rol | .rcl | .shl => r.getLsbD (w - 1) ^^ c'
  | .ror | .rcr => r.getLsbD (w - 1) ^^ r.getLsbD (w - 2)
  | .shr => v.getLsbD (w - 1)
  | .sar => false

/-- Whether the operation also sets SF, ZF, PF and leaves AF a draw. -/
def isShift : ShiftOp → Bool
  | .rol | .ror | .rcl | .rcr => false
  | .shl | .shr | .sar => true

/-- R506: what a shift or rotate with count `k ≥ 1` leaves; OF for `k > 1`, and AF after a shift, are unconstrained. -/
structure ShiftRule {w : Nat} (op : ShiftOp) (k : Nat) (v : BitVec w) (fl : Word) (r : BitVec w) (fl' : Word) :
    Prop where
  value : ShiftResult op k v (cf fl) r (cf fl')
  overflow : k = 1 → ovf fl' = ShiftOverflow op v r (cf fl')
  szp : isShift op = true → Szp r fl'
  others : Keeps (if isShift op then statusBits else [0, 11]) fl fl'

/-! ### String instructions (R550 to R558) -/

/-- R550: an index register moved by one element of `n` bytes. -/
def stepped (s : State) (n v : Word) : Word := if df s.flags then v - n else v + n

/-- One iteration of a string instruction. -/
inductive Iteration (s : State) : Instr → State → Prop where
  | movsb : Iteration s .movsb
      { s.segWrite8 s.segs.es s.regs.di (s.segRead8 (segOr s .ds) s.regs.si) with
        regs := { s.regs with si := stepped s 1 s.regs.si, di := stepped s 1 s.regs.di } }
  | movsw : Iteration s .movsw
      { s.segWrite16 s.segs.es s.regs.di (s.segRead16 (segOr s .ds) s.regs.si) with
        regs := { s.regs with si := stepped s 2 s.regs.si, di := stepped s 2 s.regs.di } }
  | cmpsb (r : Byte) (fl : Word)
      (h : SubRule (s.segRead8 (segOr s .ds) s.regs.si) (s.segRead8 s.segs.es s.regs.di) false s.flags r fl) :
      Iteration s .cmpsb
        { s with
          flags := fl
          regs := { s.regs with si := stepped s 1 s.regs.si, di := stepped s 1 s.regs.di } }
  | cmpsw (r : Word) (fl : Word)
      (h : SubRule (s.segRead16 (segOr s .ds) s.regs.si) (s.segRead16 s.segs.es s.regs.di) false s.flags r fl) :
      Iteration s .cmpsw
        { s with
          flags := fl
          regs := { s.regs with si := stepped s 2 s.regs.si, di := stepped s 2 s.regs.di } }
  | scasb (r : Byte) (fl : Word)
      (h : SubRule (s.reg8 .al) (s.segRead8 s.segs.es s.regs.di) false s.flags r fl) :
      Iteration s .scasb { s with flags := fl, regs := { s.regs with di := stepped s 1 s.regs.di } }
  | scasw (r : Word) (fl : Word)
      (h : SubRule s.regs.ax (s.segRead16 s.segs.es s.regs.di) false s.flags r fl) :
      Iteration s .scasw { s with flags := fl, regs := { s.regs with di := stepped s 2 s.regs.di } }
  | lodsb : Iteration s .lodsb
      { s with
        regs := { s.regs.set8 .al (s.segRead8 (segOr s .ds) s.regs.si) with si := stepped s 1 s.regs.si } }
  | lodsw : Iteration s .lodsw
      { s with
        regs := { s.regs with ax := s.segRead16 (segOr s .ds) s.regs.si, si := stepped s 2 s.regs.si } }
  | stosb : Iteration s .stosb
      { s.segWrite8 s.segs.es s.regs.di (s.reg8 .al) with
        regs := { s.regs with di := stepped s 1 s.regs.di } }
  | stosw : Iteration s .stosw
      { s.segWrite16 s.segs.es s.regs.di s.regs.ax with
        regs := { s.regs with di := stepped s 2 s.regs.di } }

/-- The string instructions. -/
def stringInstrs : List Instr :=
  [.movsb, .movsw, .cmpsb, .cmpsw, .scasb, .scasw, .lodsb, .lodsw, .stosb, .stosw]

/-- R551, R552: the repeat ends after an iteration that left CX and ZF in `t`. -/
def repeatEnds (i : Instr) (r : Rep) (t : State) : Prop :=
  t.regs.cx = 0 ∨ (i ∈ [Instr.cmpsb, .cmpsw, .scasb, .scasw] ∧ (zf t.flags = false ↔ r = .rep))

/-! ### The invariant -/

/-- R815, R822, R824: what the fields of a PIT channel satisfy. -/
structure ChannelInv (c : Channel) : Prop where
  reload : c.reload = if c.count = 0 then 65536 else c.count.toNat
  ce : c.ce ≤ c.reload
  active : c.active = true → 1 ≤ c.ce

/-- The invariant of a state between two steps: memory in its canonical form, the PIT's channels in range, no decode-transient
state (R71), and no pending single-step trap unless `SINGLE_STEP` (R74). -/
structure Inv (s : State) : Prop where
  mem : s.mem.wf
  c0 : ChannelInv s.pit.c0
  c1 : ChannelInv s.pit.c1
  c2 : ChannelInv s.pit.c2
  tr : s.tr = .none
  trap : s.trapPending = true → s.params.singleStep = true

/-- R200: no interrupt is delivered at the top of a step and the CPU is not halted: the step fetches an instruction. -/
structure Fetches (s : State) : Prop where
  running : s.status = .running
  turn : s.sched = []
  nmi : s.nmiPending = false ∨ s.intDelay = true
  intr : s.intrPending = false ∨ s.intDelay = true ∨ ie s.flags = false
  trap : s.params.singleStep = false ∨ s.trapPending = false ∨ s.intDelay = true
  awake : s.halted = false

/-- R57: the reserved bits of FLAGS. -/
def reservedBits : List Nat := [1, 3, 5, 12, 13, 14, 15]

/-- The segment override a prefix sets. -/
def segOverride : Instr → Option SegReg
  | .segEs => some .es
  | .segCs => some .cs
  | .segSs => some .ss
  | .segDs => some .ds
  | _ => none

/-- The repeat mode a prefix sets. -/
def repeatPrefix : Instr → Option Rep
  | .repne => some .repne
  | .rep => some .rep
  | _ => none

/-- The state after a run of instructions, where each completes. -/
def runPrefixes : List Instr → State → Option State
  | [], s => some s
  | i :: is, s =>
    match exec i s with
    | .next t => runPrefixes is t
    | .fault _ | .refused _ => none

/-- R754: the MCB chain is one block at `MCB_BASE`, free, of `n` paragraphs. -/
structure SingleFree (s : State) (n : Nat) : Prop where
  sig : mcbSig s s.params.mcbBase.toNat = 0x5A
  owner : mcbOwner s s.params.mcbBase.toNat = 0
  size : mcbSize s s.params.mcbBase.toNat = n

/-- R750: what a header says of its block. -/
structure Block where
  owner : Word
  size : Nat
  deriving DecidableEq, Repr

/-- R750 to R755: from header `h` on memory holds exactly the headers of these blocks, each where R752 places it, all signed
`'M'` but the last, which is signed `'Z'`; the chain ends within segment 0xFFFF (R753). -/
def Chain (s : State) : Nat → List Block → Prop
  | h, [] => h ≤ 65536
  | h, b :: bs =>
    mcbSig s h = (if bs = [] then 0x5A else 0x4D) ∧ mcbOwner s h = b.owner ∧ mcbSize s h = b.size ∧
      Chain s (h + 1 + b.size) bs

/-- R752: the segments of consecutive blocks' headers, with the blocks. -/
def placed : Nat → List Block → List (Nat × Block)
  | _, [] => []
  | h, b :: bs => (h, b) :: placed (h + 1 + b.size) bs

/-- The paragraphs of consecutive blocks with their headers. -/
def span : List Block → Nat
  | [] => 0
  | b :: bs => b.size + 1 + span bs

/-- R756: block `b` with the free blocks right behind it absorbed, and the blocks behind those. -/
def absorb (b : Block) : List Block → List Block
  | [] => [b]
  | c :: cs => if c.owner = 0 then absorb { b with size := b.size + c.size + 1 } cs else b :: c :: cs

/-- R757: the blocks with every free one coalesced. -/
def merged : List Block → List Block
  | [] => []
  | b :: bs =>
    match merged bs with
    | [] => [b]
    | c :: cs => if b.owner = 0 ∧ c.owner = 0 then { b with size := b.size + c.size + 1 } :: cs else b :: c :: cs

/-- R757: the free blocks of at least `r` paragraphs, in address order. -/
def fitting (r : Nat) (h : Nat) (bs : List Block) : List (Nat × Block) :=
  (placed h bs).filter fun x => decide (x.2.owner = 0 ∧ r ≤ x.2.size)

/-- R763: the size of the largest free block, 0 where none is. -/
def largestFree : List Block → Nat
  | [] => 0
  | b :: bs => if b.owner = 0 then max b.size (largestFree bs) else largestFree bs

/-- R758 to R760: the block chosen: the first, the first of the smallest ones, or the last. -/
def chosenOf (st : Strategy) (xs : List (Nat × Block)) : Option (Nat × Block) :=
  match st with
  | .firstFit => xs.head?
  | .bestFit => xs.find? fun x => xs.all fun y => decide (x.2.size ≤ y.2.size)
  | .lastFit => xs.getLast?

/-- R761, R762: what a chosen block becomes. -/
def pieces (st : Strategy) (r : Nat) (pid : Word) (b : Block) : List Block :=
  if r < b.size then
    match st with
    | .firstFit | .bestFit => [⟨pid, r⟩, ⟨0, b.size - r - 1⟩]
    | .lastFit => [⟨0, b.size - r - 1⟩, ⟨pid, r⟩]
  else [⟨pid, b.size⟩]

/-- R761, R762: the data segment of an allocation from block `b` with its header at `h`. -/
def dataSegment (st : Strategy) (r h : Nat) (b : Block) : Nat :=
  match st with
  | .firstFit | .bestFit => h + 1
  | .lastFit => h + 1 + (b.size - r)

/-- R757 to R763: the blocks an allocation leaves, and its answer. -/
def allocated (h : Nat) (bs : List Block) (r : Nat) (st : Strategy) (pid : Word) : List Block × McbResult :=
  let ms := merged bs
  match chosenOf st (fitting r h ms) with
  | none => (ms, .outOfMemory (largestFree ms))
  | some x =>
    ((placed h ms).flatMap fun y => if y.1 = x.1 then pieces st r pid y.2 else [y.2], .ok (dataSegment st r x.1 x.2))

/-- R765: the blocks that resizing the first one leaves, and the answer; `seg` is its data segment. -/
def resized (seg m : Nat) (b : Block) (bs : List Block) : List Block × McbResult :=
  match absorb b bs with
  | [] => ([], .refused)
  | c :: cs =>
    if c.size < m then (c :: cs, .tooSmall c.size)
    else if m < c.size then ({ c with size := m } :: ⟨0, c.size - m - 1⟩ :: cs, .ok seg)
    else (c :: cs, .ok seg)

/-- R750: memory outside bytes 0 to 4 of the headers of `xs` is as before. -/
def KeepsOutside (xs : List (Nat × Block)) (s t : State) : Prop :=
  ∀ a, (∀ x ∈ xs, ∀ k, k < 5 → a ≠ 16 * x.1 + k) → t.memRead8 a = s.memRead8 a

/-- R200, R810: the instruction performs the interrupt-call. -/
def interrupts (s : State) : Instr → Bool
  | .intIb _ | .int3 => true
  | .into => ovf s.flags
  | i => divideErrors s i

end Sys2Proof.Spec

open Sys2Proof Sys2Proof.Machine Sys2Proof.Spec

/-! ### Encoding -/

/-- Words written out from the encodings of spec/30_encoding.md and the rules' own "Encoding" lines. -/
def Obligations.DecodesSpecWords : Prop :=
  decode [0xB8, 0x34, 0x12] = .ok (.movAxIv 0x1234, []) ∧
  decode [0x8A, 0x06, 0x10, 0x00] = .ok (.movGbEb (.mem (.direct 0x0010)) .al, []) ∧
  decode [0x8A, 0x46, 0x02] = .ok (.movGbEb (.mem (.disp8 .bp 0x02)) .al, []) ∧
  decode [0xC7, 0x47, 0x20, 0x34, 0x12] = .ok (.movEvIv (.mem (.disp8 .bx 0x20)) 0x1234, []) ∧
  decode [0x83, 0xC0, 0xFF] = .ok (.addEvIb (.reg .ax) 0xFF, []) ∧
  decode [0xD3, 0xE8] = .ok (.shrEvCl (.reg .ax), []) ∧
  decode [0x9A, 0x34, 0x12, 0x00, 0x20] = .ok (.callAp 0x1234 0x2000, []) ∧
  decode [0xFF, 0x2E, 0x10, 0x00] = .ok (.jmpMp (.direct 0x0010), []) ∧
  decode [0xFE, 0xF8, 0x21, 0x00, 0xCF] = .ok (.callbackIw 0 0x0021, [0xCF]) ∧
  decode [0x8E, 0xC8] = .ok (.ud 0x8E (some 0xC8), []) ∧
  decode [0x0F, 0x90] = .ok (.ud 0x0F none, [0x90])

/-- Decoding the encoding of a well-formed instruction gives it back, whatever follows: no bit of an encoding is dropped. -/
def Obligations.DecodeInvertsEncode : Prop :=
  ∀ (i : Instr) (rest : List Byte), i.wf = true → decode (encode i ++ rest) = .ok (i, rest)

/-- Whatever the decoder reads is a well-formed instruction, and its encoding is exactly the bytes that were read: no two
byte sequences stand for one instruction. -/
def Obligations.EncodeInvertsDecode : Prop :=
  ∀ (bs rest : List Byte) (i : Instr), decode bs = .ok (i, rest) → i.wf = true ∧ encode i ++ rest = bs

/-- R217: six bytes always hold a whole instruction (after its prefixes), of one to six bytes. -/
def Obligations.SixBytesDecode : Prop :=
  ∀ bs : List Byte, 6 ≤ bs.length →
    ∃ i rest, decode bs = .ok (i, rest) ∧ rest.length < bs.length ∧ bs.length ≤ rest.length + 6

/-- R218: the decoder answers an undefined encoding exactly for the opcodes and ModRM bytes the rule lists. -/
def Obligations.UndefinedExactly : Prop :=
  ∀ (op m : Byte) (rest : List Byte), 4 ≤ rest.length →
    ((∃ o r, decode (op :: m :: rest) = .ok (.ud op o, r)) ↔
      (op.toNat = 0x0F ∨ (0x60 ≤ op.toNat ∧ op.toNat ≤ 0x6F) ∨ op.toNat ∈ [0xC0, 0xC1, 0xC8, 0xC9, 0xD6, 0xF1]) ∨
      (let md := m.toNat / 64
       let reg := m.toNat / 8 % 8
       (op.toNat ∈ [0xD0, 0xD1, 0xD2, 0xD3] ∧ reg = 6) ∨
       (op.toNat ∈ [0xF6, 0xF7] ∧ reg = 1) ∨
       (op.toNat = 0xFE ∧ (2 ≤ reg ∧ reg ≤ 6 ∨ reg = 7 ∧ md ≠ 3)) ∨
       (op.toNat = 0xFF ∧ (reg = 7 ∨ (reg = 3 ∨ reg = 5) ∧ md = 3)) ∨
       (op.toNat = 0x8C ∧ 4 ≤ reg) ∨
       (op.toNat = 0x8E ∧ (4 ≤ reg ∨ reg = 1)) ∨
       (op.toNat ∈ [0x8F, 0xC6, 0xC7] ∧ reg ≠ 0) ∨
       (op.toNat ∈ [0x8D, 0xC4, 0xC5] ∧ md = 3)))

/-! ### The step -/

/-- R200, R810: a step that fetches clears the delay flag, records `start_IP` and TF, and enters the prefix loop, whose bound
is the 65536 prefixes of R202. Where the bytes at CS:IP decode to an instruction that is no prefix, the step runs it: IP moves
past the instruction's bytes, `exec` runs, the decode-transient state goes, and with `SINGLE_STEP` `trap_pending` becomes
whether TF was set at the start and no interrupt-call was performed; a step that ended the run leaves it (DESIGN CHOICE,
notes/assumptions/6.md). -/
def Obligations.StepRunsDecoded : Prop :=
  ∀ s : State, Fetches s →
    let start : State :=
      { s with
        intDelay := false
        tr := { segOvr := none, rep := none, lock := false, startIp := s.ip, tfAtStart := tf s.flags, prefixBytes := [],
                calledInt := false } }
    Machine.step s = runFrom 65536 start ∧
    ∀ (i : Instr) (rest : List Byte), decode (fetched s) = .ok (i, rest) → i.isPrefix = false →
      ∃ t, exec i { start with ip := s.ip + BitVec.ofNat 16 (6 - rest.length) } = .next t ∧
        Machine.step s = .next { t with
          tr := { segOvr := none, rep := none, lock := false, startIp := 0, tfAtStart := false, prefixBytes := [],
                  calledInt := false }
          trapPending :=
            if t.status = .running ∧ s.params.singleStep = true then tf s.flags && !t.tr.calledInt else t.trapPending }

/-- R200 to R202, R810: the prefix loop. A prefix is executed in the same step as what follows: the loop records it and goes on
behind it. Any other instruction is executed with what the prefixes recorded and ends the step: the decode-transient state
goes, and with `SINGLE_STEP` `trap_pending` becomes whether TF was set at the start of the step and no interrupt-call was
performed; a step that ended the run leaves it (DESIGN CHOICE, notes/assumptions/6.md). -/
def Obligations.PrefixLoopsBack : Prop :=
  ∀ (s : State) (i : Instr) (rest : List Byte) (n : Nat), decode (fetched s) = .ok (i, rest) →
    (i.isPrefix = true →
      ∃ t, exec i { s with ip := s.ip + 1 } = .next t ∧ rest.length = 5 ∧ runFrom (n + 1) s = runFrom n t) ∧
    (i.isPrefix = false →
      ∃ t, exec i { s with ip := s.ip + BitVec.ofNat 16 (6 - rest.length) } = .next t ∧
        runFrom (n + 1) s = .next { t with
          tr := { segOvr := none, rep := none, lock := false, startIp := 0, tfAtStart := false, prefixBytes := [],
                  calledInt := false }
          trapPending :=
            if t.status = .running ∧ s.params.singleStep = true then s.tr.tfAtStart && !t.tr.calledInt
            else t.trapPending })

/-- R202, R200: where every byte of the code segment is a prefix byte, the step ends in `fault PrefixHang`: the status changes
and step 3 of R200 has cleared the delay flag, nothing else; IP is back at the first prefix. That `trap_pending` stays as it
was is the DESIGN CHOICE of notes/assumptions/6.md. -/
def Obligations.PrefixHangs : Prop :=
  ∀ s : State, Fetches s → s.tr = .none →
    (∀ off : Word, s.segRead8 s.segs.cs off ∈ ([0x26, 0x2E, 0x36, 0x3E, 0xF0, 0xF2, 0xF3] : List Byte)) →
    Machine.step s = .next { s with intDelay := false, status := .fault .prefixHang }

/-- R200, R803, R808: interrupt sampling at the top of a step. NMI, then INTR with IF = 1, then the single-step trap, each
held off by the delay flag; the one taken consumes the step; a halted CPU with nothing to take only clears the delay. -/
def Obligations.InterruptSampling : Prop :=
  ∀ s : State, s.status = .running → s.sched = [] → s.tr = .none →
    (s.nmiPending = true → s.intDelay = false →
      Machine.step s =
        .next { interruptCall 2 { s with nmiPending := false, halted := false } with tr := .none }) ∧
    (s.nmiPending = false → s.intrPending = true → s.intDelay = false → ie s.flags = true →
      Machine.step s =
        .next { interruptCall s.intrVector { s with intrPending := false, halted := false } with tr := .none }) ∧
    (s.nmiPending = false → (s.intrPending = false ∨ ie s.flags = false) → s.params.singleStep = true →
      s.trapPending = true → s.intDelay = false →
      Machine.step s =
        .next { interruptCall 1 { s with trapPending := false, halted := false } with tr := .none }) ∧
    (s.halted = true →
      s.intDelay = true ∨ (s.nmiPending = false ∧ (s.intrPending = false ∨ ie s.flags = false) ∧
        (s.params.singleStep = false ∨ s.trapPending = false)) →
      Machine.step s = .next { s with intDelay := false })

/-- R75, R812, R906, R200: once the machine has faulted or the program has exited no further step runs; a running machine
always answers a next state. That a step which does not run answers the outcome `fault` is DEDUCED (notes/assumptions/6.md). -/
def Obligations.EndedMachineStops : Prop :=
  ∀ s : State,
    (∀ r, s.status = .fault r → Machine.step s = .fault (.machineFault r)) ∧
    (∀ c, s.status = .exited c → Machine.step s = .fault (.exited c)) ∧
    (s.status = .running → ∃ t, Machine.step s = .next t)

/-- R829, R831: a host turn performs its action between two steps of the CPU and nothing else (the schedule is the model's own
field, notes/assumptions/5.md). The actions: a byte of memory, a register, IP or FLAGS is written; an inspection, a pause or a
resume changes nothing; an NMI or an INTR is raised (R804, R805); the program ends, or the host refuses to go on; PIT cycles pass
(`runPit`); a vector-table entry is written, IP word then CS word (R802); a callback's stub `FE F8 id_lo id_hi` is written and
`id` made a key of the registry (R712); a port read or write reaches the PIT (R163, R165, R816), and of the ports of no device
and the external ones only a read of the latter leaves a mark, the draw it uses up (R164, DESIGN CHOICE of
notes/assumptions/4.md). -/
def Obligations.HostActions : Prop :=
  (∀ (s : State) (a : HostAction) (rest : List Turn), s.status = .running → s.sched = .host a :: rest →
    Machine.step s = .next (hostAct a { s with sched := rest })) ∧
  ∀ s : State,
    (∀ seg off v, hostAct (.writeMem seg off v) s = s.memWrite8 ((16 * seg.toNat + off.toNat) % 2 ^ 20) v) ∧
    (∀ seg off, hostAct (.readMem seg off) s = s) ∧
    (∀ r v, let t := hostAct (.writeReg r v) s
      t.reg16 r = v ∧ (∀ q, q ≠ r → t.reg16 q = s.reg16 q) ∧ t = { s with regs := t.regs }) ∧
    (∀ r v, let t := hostAct (.writeSeg r v) s
      t.sreg r = v ∧ (∀ q, q ≠ r → t.sreg q = s.sreg q) ∧ t = { s with segs := t.segs }) ∧
    (∀ v, hostAct (.writeIp v) s = { s with ip := v }) ∧
    (∀ v, hostAct (.writeFlags v) s = { s with flags := v }) ∧
    hostAct .readRegs s = s ∧
    hostAct .raiseNmi s = { s with nmiPending := true } ∧
    (∀ v, hostAct (.raiseIntr v) s = { s with intrPending := true, intrVector := v }) ∧
    (∀ n, hostAct (.runPit n) s = runPit n s) ∧
    (∀ port : Word,
      let p := port.toNat
      let t := hostAct (.ioRead port) s
      (0x40 ≤ p ∧ p ≤ 0x5F → t = { s with pit := s.pit.afterRead ((p - 0x40) % 4) }) ∧
      ((0x60 ≤ p ∧ p ≤ 0x64) ∨ (0x3C0 ≤ p ∧ p ≤ 0x3DF) → t = { s with draws := s.draws + 1 }) ∧
      (p < 0x40 ∨ (0x64 < p ∧ p < 0x3C0) ∨ 0x3DF < p → t = s)) ∧
    (∀ (port : Word) (v : Byte),
      let p := port.toNat
      let t := hostAct (.ioWrite port v) s
      (0x40 ≤ p ∧ p ≤ 0x5F → t = { s with pit := s.pit.write ((p - 0x40) % 4) v }) ∧
      (p < 0x40 ∨ 0x5F < p → t = s)) ∧
    (∀ id off handler,
      let t := hostAct (.installCallback id off handler) s
      let seg := s.params.callbackSegment
      t.registry.find id = some handler ∧
      (∀ k, k ≠ id → s.registry.Pairwise (fun x y => x.1.toNat < y.1.toNat) →
        t.registry.find k = s.registry.find k) ∧
      t.segRead8 seg off = 0xFE ∧ t.segRead8 seg (off + 1) = 0xF8 ∧
      t.segRead8 seg (off + 2) = BitVec.ofNat 8 id.toNat ∧ t.segRead8 seg (off + 3) = BitVec.ofNat 8 (id.toNat / 256) ∧
      (∀ a, a ∉ [phys seg off, phys seg (off + 1), phys seg (off + 2), phys seg (off + 3)] →
        t.memRead8 a = s.memRead8 a) ∧
      t = { s with mem := t.mem, registry := t.registry }) ∧
    (∀ (v : Byte) (off seg : Word),
      let t := hostAct (.installVector v off seg) s
      let e := 4 * v.toNat
      t.memRead8 e = BitVec.ofNat 8 off.toNat ∧ t.memRead8 (e + 1) = BitVec.ofNat 8 (off.toNat / 256) ∧
      t.memRead8 (e + 2) = BitVec.ofNat 8 seg.toNat ∧ t.memRead8 (e + 3) = BitVec.ofNat 8 (seg.toNat / 256) ∧
      (∀ a, a < e ∨ e + 3 < a → t.memRead8 a = s.memRead8 a) ∧ t = { s with mem := t.mem }) ∧
    hostAct .pause s = s ∧
    hostAct .resume s = s ∧
    (∀ c, hostAct (.exit c) s = { s with status := .exited c }) ∧
    (∀ m, hostAct (.refuse m) s = { s with status := .fault (.hostRefused m) })

/-! ### Invariants and frames -/

/-- The invariant holds right after reset. -/
def Obligations.InvariantAtReset : Prop := Inv State.reset

/-- Every step keeps the invariant, whatever the instruction, the interrupt, the host action or the callback handler, and no
step changes a parameter (R10). -/
def Obligations.StepKeepsInvariant : Prop :=
  ∀ s t : State, Machine.step s = .next t → (Inv s → Inv t) ∧ t.params = s.params

/-- R152, R157, R166: every byte of memory is unchanged except those the instruction stores to, for every instruction but the
callback trap (whose handler is the host's). -/
def Obligations.MemoryFrame : Prop :=
  ∀ (i : Instr) (s t : State), isCallback i = false → exec i s = .next t →
    ∀ a, a ∉ stored s i → t.memRead8 a = s.memRead8 a

/-- R13, R51, R52, R54: every register is unchanged except those the instruction writes; of an 8-bit destination the other
half is kept. -/
def Obligations.RegisterFrame : Prop :=
  ∀ (i : Instr) (s t : State), isCallback i = false → exec i s = .next t →
    (∀ r : Reg16, r ∉ wordRegs s i → (∀ q ∈ byteRegs s i, Reg8.home q ≠ r) → t.reg16 r = s.reg16 r) ∧
    (∀ q : Reg8, Reg8.home q ∉ wordRegs s i → q ∉ byteRegs s i → t.reg8 q = s.reg8 q) ∧
    (∀ r : SegReg, r ∉ segRegs s i → t.sreg r = s.sreg r)

/-- R56 to R66: every bit of FLAGS is unchanged except those the rules name for the instruction; so no instruction but POPF
and IRET changes a reserved bit (R57). -/
def Obligations.FlagsFrame : Prop :=
  ∀ (i : Instr) (s t : State), isCallback i = false → exec i s = .next t →
    Keeps (flagBits s i) s.flags t.flags ∧
    (i ≠ .popf → i ≠ .iret → ∀ k ∈ reservedBits, t.flags.getLsbD k = s.flags.getLsbD k)

/-- R70 to R75, R806, R815: what an instruction does to the rest of the machine: it raises no NMI or INTR and takes none,
sets the delay flag only by rule R806, halts only by HLT, ends the machine only by an undefined encoding, and reaches the PIT
only by IN and OUT. Of the decode-transient state (R71, R200) it changes only the note that it performed the interrupt-call,
unless it is a prefix. -/
def Obligations.SystemFrame : Prop :=
  ∀ (i : Instr) (s t : State), isCallback i = false → exec i s = .next t →
    t.nmiPending = s.nmiPending ∧ t.intrPending = s.intrPending ∧ t.intrVector = s.intrVector ∧
    t.trapPending = s.trapPending ∧ t.registry = s.registry ∧ t.params = s.params ∧ t.sched = s.sched ∧
    t.mcbResult = s.mcbResult ∧
    t.intDelay = (s.intDelay || setsDelay s i) ∧
    t.halted = (s.halted || decide (i = .hlt)) ∧
    (isUd i = false → t.status = s.status) ∧
    (accessesPort i = false → t.pit = s.pit) ∧
    (i.isPrefix = false → t.tr = { s.tr with calledInt := s.tr.calledInt || interrupts s i })

/-! ### Operations -/

/-- R15, R52, R152, R153: the 8-bit registers are the halves of AX, CX, DX and BX; writing an operand: reading it back gives
the value, the other half of an 8-bit register is kept, and outside the written register or bytes nothing changes: a register
write changes nothing but the registers, a memory write nothing but memory; a word is its two bytes, the low one at `pa`, the
high one at `(pa + 1) mod 2^20`. -/
def Obligations.WriteOperand : Prop :=
  ∀ s : State,
    (∀ (r : Reg8) (v : Byte), s.writeOp8 v (.reg r) = { s with regs := (s.writeOp8 v (.reg r)).regs }) ∧
    (∀ (r : Reg16) (v : Word), s.writeOp16 v (.reg r) = { s with regs := (s.writeOp16 v (.reg r)).regs }) ∧
    (∀ (seg off : Word) (v : Byte), s.writeOp8 v (.mem seg off) = { s with mem := (s.writeOp8 v (.mem seg off)).mem }) ∧
    (∀ (seg off v : Word), s.writeOp16 v (.mem seg off) = { s with mem := (s.writeOp16 v (.mem seg off)).mem }) ∧
    (∀ i : BitVec 3,
      (i.toNat < 4 → (s.reg8 (Reg8.ofIdx i)).toNat = (s.reg16 (Reg16.ofIdx i)).toNat % 256) ∧
      (4 ≤ i.toNat → (s.reg8 (Reg8.ofIdx i)).toNat = (s.reg16 (Reg16.ofIdx (i - 4))).toNat / 256)) ∧
    (∀ (r : Reg8) (v : Byte), (s.writeOp8 v (.reg r)).reg8 r = v ∧
      (∀ q, q ≠ r → (s.writeOp8 v (.reg r)).reg8 q = s.reg8 q) ∧
      (∀ q, q ≠ Reg8.home r → (s.writeOp8 v (.reg r)).reg16 q = s.reg16 q)) ∧
    (∀ (r : Reg16) (v : Word), (s.writeOp16 v (.reg r)).reg16 r = v ∧
      ∀ q, q ≠ r → (s.writeOp16 v (.reg r)).reg16 q = s.reg16 q) ∧
    (∀ (seg off : Word) (v : Byte) (a : Nat),
      (s.writeOp8 v (.mem seg off)).memRead8 a =
        if a = (16 * seg.toNat + off.toNat) % 2 ^ 20 then v else s.memRead8 a) ∧
    (∀ (seg off : Word) (v : Word) (a : Nat),
      let pa := (16 * seg.toNat + off.toNat) % 2 ^ 20
      (s.writeOp16 v (.mem seg off)).memRead8 a =
        if a = pa then BitVec.ofNat 8 v.toNat
        else if a = (pa + 1) % 2 ^ 20 then BitVec.ofNat 8 (v.toNat / 256) else s.memRead8 a) ∧
    (∀ seg off : Word,
      let pa := (16 * seg.toNat + off.toNat) % 2 ^ 20
      s.readOp8 (.mem seg off) = s.memRead8 pa ∧
      (s.readOp16 (.mem seg off)).toNat =
        (s.memRead8 pa).toNat + 256 * (s.memRead8 ((pa + 1) % 2 ^ 20)).toNat)

/-- R206, R208: the effective address is the sum modulo 2^16 of the registers the `rm` field names and the sign-extended or
16-bit displacement; the segment is the override's, else SS where BP is a base register, else DS. -/
def Obligations.EffectiveAddress : Prop :=
  ∀ (s : State) (b : Base) (d8 : Byte) (d16 : Word),
    let sum : Nat := match b with
      | .bxSi => s.regs.bx.toNat + s.regs.si.toNat
      | .bxDi => s.regs.bx.toNat + s.regs.di.toNat
      | .bpSi => s.regs.bp.toNat + s.regs.si.toNat
      | .bpDi => s.regs.bp.toNat + s.regs.di.toNat
      | .si => s.regs.si.toNat | .di => s.regs.di.toNat | .bp => s.regs.bp.toNat | .bx => s.regs.bx.toNat
    ea s (.direct d16) = d16 ∧
    (ea s (.base b)).toNat = sum % 65536 ∧
    ((ea s (.disp8 b d8)).toNat : Int) = ((sum : Int) + d8.toInt) % 65536 ∧
    (ea s (.disp16 b d16)).toNat = (sum + d16.toNat) % 65536 ∧
    (∀ m, s.tr.segOvr = none →
      memSeg s m = match m with
        | .direct _ => s.segs.ds
        | .base b | .disp8 b _ | .disp16 b _ =>
          if b = .bpSi ∨ b = .bpDi ∨ b = .bp then s.segs.ss else s.segs.ds) ∧
    (∀ m r, s.tr.segOvr = some r → memSeg s m = s.sreg r)

/-- R801: the interrupt-call: the 6-byte frame IP, CS, FLAGS at the new SS:SP, IF and TF cleared, CS:IP from the vector as it
was before the pushes, and nothing else (`calledInt` is the note rule R200's last line reads). -/
def Obligations.InterruptCallFrame : Prop :=
  ∀ (s : State) (v : Byte),
    let t := interruptCall v s
    t.regs = { s.regs with sp := s.regs.sp - 6 } ∧
    t.segRead16 s.segs.ss (s.regs.sp - 6) = s.ip ∧
    t.segRead16 s.segs.ss (s.regs.sp - 4) = s.segs.cs ∧
    t.segRead16 s.segs.ss (s.regs.sp - 2) = s.flags ∧
    t.ip = s.memRead16 (4 * v.toNat) ∧
    t.segs = { s.segs with cs := s.memRead16 (4 * v.toNat + 2) } ∧
    ie t.flags = false ∧ tf t.flags = false ∧ Keeps [8, 9] s.flags t.flags ∧
    (∀ a, a ∉ pushedBytes s 3 → t.memRead8 a = s.memRead8 a) ∧
    t = { s with
      regs := t.regs, segs := t.segs, ip := t.ip, flags := t.flags, mem := t.mem, tr := { s.tr with calledInt := true } }

/-- R811, R638: IRET is the exact inverse of the interrupt-call: it restores CS, IP, FLAGS and SP, whatever the vector. -/
def Obligations.IretInvertsInterruptCall : Prop :=
  ∀ (s : State) (v : Byte), ∃ u, exec .iret (interruptCall v s) = .next u ∧
    u.segs = s.segs ∧ u.ip = s.ip ∧ u.flags = s.flags ∧ u.regs = s.regs

/-- R57, R326, R327: PUSHF stores FLAGS bit for bit and POPF writes the popped word whole; one after the other they leave
FLAGS and SP as they were, the reserved bits included. -/
def Obligations.PushfPopf : Prop :=
  ∀ s : State,
    exec .pushf s =
      .next ({ s with regs := { s.regs with sp := s.regs.sp - 2 } }.segWrite16 s.segs.ss (s.regs.sp - 2) s.flags) ∧
    exec .popf s =
      .next { s with regs := { s.regs with sp := s.regs.sp + 2 }, flags := s.segRead16 s.segs.ss s.regs.sp } ∧
    ∃ t u, exec .pushf s = .next t ∧ exec .popf t = .next u ∧ u.flags = s.flags ∧ u.regs = s.regs

/-! ### Arithmetic and logic -/

/-- R403, R404: ADD and ADC in every form complete with the result and flags of R401, and change nothing else. -/
def Obligations.AddAndAdc : Prop :=
  ∀ (s : State) (i : Instr) (op : AluOp), op = .add ∨ op = .adc →
    (∀ dst src, Binary8 s op i dst src → ∃ r fl, exec i s = .next ({ s with flags := fl }.writeOp8 r dst) ∧
      AddRule (s.readOp8 dst) (s.readOp8 src) (decide (op = .adc) && cf s.flags) s.flags r fl) ∧
    (∀ dst src, Binary16 s op i dst src → ∃ r fl, exec i s = .next ({ s with flags := fl }.writeOp16 r dst) ∧
      AddRule (s.readOp16 dst) (s.readOp16 src) (decide (op = .adc) && cf s.flags) s.flags r fl)

/-- R405, R406, R407: SUB and SBB in every form complete with the result and flags of R402; CMP leaves only the flags. -/
def Obligations.SubSbbCmp : Prop :=
  ∀ (s : State) (i : Instr) (op : AluOp), op = .sub ∨ op = .sbb ∨ op = .cmp →
    (∀ dst src, Binary8 s op i dst src → ∃ r fl,
      exec i s = .next (if op = .cmp then { s with flags := fl } else { s with flags := fl }.writeOp8 r dst) ∧
      SubRule (s.readOp8 dst) (s.readOp8 src) (decide (op = .sbb) && cf s.flags) s.flags r fl) ∧
    (∀ dst src, Binary16 s op i dst src → ∃ r fl,
      exec i s = .next (if op = .cmp then { s with flags := fl } else { s with flags := fl }.writeOp16 r dst) ∧
      SubRule (s.readOp16 dst) (s.readOp16 src) (decide (op = .sbb) && cf s.flags) s.flags r fl)

/-- R501 to R504: AND, OR and XOR in every form complete with the bitwise result and the flags of R500; TEST leaves only the
flags of the AND. -/
def Obligations.LogicAndTest : Prop :=
  ∀ (s : State) (i : Instr),
    (∀ dst src,
      (Binary8 s .and i dst src → ∃ fl, exec i s =
          .next ({ s with flags := fl }.writeOp8 (s.readOp8 dst &&& s.readOp8 src) dst) ∧
        LogicRule (s.readOp8 dst &&& s.readOp8 src) s.flags fl) ∧
      (Binary8 s .or i dst src → ∃ fl, exec i s =
          .next ({ s with flags := fl }.writeOp8 (s.readOp8 dst ||| s.readOp8 src) dst) ∧
        LogicRule (s.readOp8 dst ||| s.readOp8 src) s.flags fl) ∧
      (Binary8 s .xor i dst src → ∃ fl, exec i s =
          .next ({ s with flags := fl }.writeOp8 (s.readOp8 dst ^^^ s.readOp8 src) dst) ∧
        LogicRule (s.readOp8 dst ^^^ s.readOp8 src) s.flags fl) ∧
      (Test8 s i dst src → ∃ fl, exec i s = .next { s with flags := fl } ∧
        LogicRule (s.readOp8 dst &&& s.readOp8 src) s.flags fl)) ∧
    (∀ dst src,
      (Binary16 s .and i dst src → ∃ fl, exec i s =
          .next ({ s with flags := fl }.writeOp16 (s.readOp16 dst &&& s.readOp16 src) dst) ∧
        LogicRule (s.readOp16 dst &&& s.readOp16 src) s.flags fl) ∧
      (Binary16 s .or i dst src → ∃ fl, exec i s =
          .next ({ s with flags := fl }.writeOp16 (s.readOp16 dst ||| s.readOp16 src) dst) ∧
        LogicRule (s.readOp16 dst ||| s.readOp16 src) s.flags fl) ∧
      (Binary16 s .xor i dst src → ∃ fl, exec i s =
          .next ({ s with flags := fl }.writeOp16 (s.readOp16 dst ^^^ s.readOp16 src) dst) ∧
        LogicRule (s.readOp16 dst ^^^ s.readOp16 src) s.flags fl) ∧
      (Test16 s i dst src → ∃ fl, exec i s = .next { s with flags := fl } ∧
        LogicRule (s.readOp16 dst &&& s.readOp16 src) s.flags fl))

/-- R408, R409: INC and DEC in every form are an addition or subtraction of 1 with its flags, but CF is kept. -/
def Obligations.IncAndDec : Prop :=
  ∀ (s : State) (i : Instr),
    (∀ dst, IncDec8 s true i dst → ∃ r fl fl', exec i s = .next ({ s with flags := fl }.writeOp8 r dst) ∧
      AddRule (s.readOp8 dst) 1 false s.flags r fl' ∧ cf fl = cf s.flags ∧ Keeps [0] fl' fl) ∧
    (∀ dst, IncDec8 s false i dst → ∃ r fl fl', exec i s = .next ({ s with flags := fl }.writeOp8 r dst) ∧
      SubRule (s.readOp8 dst) 1 false s.flags r fl' ∧ cf fl = cf s.flags ∧ Keeps [0] fl' fl) ∧
    (∀ dst, IncDec16 s true i dst → ∃ r fl fl', exec i s = .next ({ s with flags := fl }.writeOp16 r dst) ∧
      AddRule (s.readOp16 dst) 1 false s.flags r fl' ∧ cf fl = cf s.flags ∧ Keeps [0] fl' fl) ∧
    (∀ dst, IncDec16 s false i dst → ∃ r fl fl', exec i s = .next ({ s with flags := fl }.writeOp16 r dst) ∧
      SubRule (s.readOp16 dst) 1 false s.flags r fl' ∧ cf fl = cf s.flags ∧ Keeps [0] fl' fl)

/-- R410, R505: NEG is `0 - d`, with CF exactly when `d ≠ 0` and OF exactly when `d = 2^(w-1)`; NOT writes `M_w - d` and no
flag. -/
def Obligations.NegAndNot : Prop :=
  ∀ s : State,
    (∀ e : RM8,
      (∃ r fl, exec (.negEb e) s = .next ({ s with flags := fl }.writeOp8 r (rm8 s e)) ∧
        SubRule 0 (s.readOp8 (rm8 s e)) false s.flags r fl ∧
        cf fl = decide ((s.readOp8 (rm8 s e)).toNat ≠ 0) ∧ ovf fl = decide ((s.readOp8 (rm8 s e)).toNat = 0x80)) ∧
      (∃ r : Byte, exec (.notEb e) s = .next (s.writeOp8 r (rm8 s e)) ∧
        r.toNat = 0xFF - (s.readOp8 (rm8 s e)).toNat)) ∧
    (∀ e : RM16,
      (∃ r fl, exec (.negEv e) s = .next ({ s with flags := fl }.writeOp16 r (rm16 s e)) ∧
        SubRule 0 (s.readOp16 (rm16 s e)) false s.flags r fl ∧
        cf fl = decide ((s.readOp16 (rm16 s e)).toNat ≠ 0) ∧
        ovf fl = decide ((s.readOp16 (rm16 s e)).toNat = 0x8000)) ∧
      (∃ r : Word, exec (.notEv e) s = .next (s.writeOp16 r (rm16 s e)) ∧
        r.toNat = 0xFFFF - (s.readOp16 (rm16 s e)).toNat))

/-- R423 point 3: after an addition or a subtraction CF reports that the unsigned, and OF that the signed, exact result does
not fit; AF is the carry or borrow of the low four bits. -/
def Obligations.CarryAndOverflowMeaning : Prop :=
  ∀ (w : Nat) (d s : BitVec w) (c : Bool) (fl : Word), 5 ≤ w →
    let a := addFlags d s c fl
    let b := subFlags d s c fl
    (cf a.2 = true ↔ (a.1.toNat : Int) ≠ d.toNat + s.toNat + c.toNat) ∧
    (ovf a.2 = true ↔ a.1.toInt ≠ d.toInt + s.toInt + c.toNat) ∧
    (af a.2 = true ↔ 16 ≤ d.toNat % 16 + s.toNat % 16 + c.toNat) ∧
    (cf b.2 = true ↔ (b.1.toNat : Int) ≠ d.toNat - s.toNat - c.toNat) ∧
    (ovf b.2 = true ↔ b.1.toInt ≠ d.toInt - s.toInt - c.toNat) ∧
    (af b.2 = true ↔ d.toNat % 16 < s.toNat % 16 + c.toNat)

/-- R411, R412: MUL and IMUL give the exact double-width product; CF = OF tell whether the upper half is significant; SF, ZF,
AF and PF are free values. -/
def Obligations.Multiply : Prop :=
  ∀ s : State,
    (∀ e : RM8, ∃ p fl n, exec (.mulEb e) s =
        .next { s with regs := { s.regs with ax := p }, flags := fl, draws := n } ∧
      p.toNat = (s.reg8 .al).toNat * (s.readOp8 (rm8 s e)).toNat ∧
      cf fl = decide (256 ≤ p.toNat) ∧ ovf fl = cf fl ∧ Keeps statusBits s.flags fl) ∧
    (∀ e : RM16, ∃ hi lo fl n, exec (.mulEv e) s =
        .next { s with regs := { s.regs with ax := lo, dx := hi }, flags := fl, draws := n } ∧
      65536 * hi.toNat + lo.toNat = s.regs.ax.toNat * (s.readOp16 (rm16 s e)).toNat ∧
      cf fl = decide (hi.toNat ≠ 0) ∧ ovf fl = cf fl ∧ Keeps statusBits s.flags fl) ∧
    (∀ e : RM8, ∃ p fl n, exec (.imulEb e) s =
        .next { s with regs := { s.regs with ax := p }, flags := fl, draws := n } ∧
      p.toInt = (s.reg8 .al).toInt * (s.readOp8 (rm8 s e)).toInt ∧
      cf fl = decide (p.toInt < -128 ∨ 127 < p.toInt) ∧ ovf fl = cf fl ∧ Keeps statusBits s.flags fl) ∧
    (∀ e : RM16, ∃ hi lo fl n, exec (.imulEv e) s =
        .next { s with regs := { s.regs with ax := lo, dx := hi }, flags := fl, draws := n } ∧
      (hi ++ lo).toInt = s.regs.ax.toInt * (s.readOp16 (rm16 s e)).toInt ∧
      cf fl = decide ((hi ++ lo).toInt < -32768 ∨ 32767 < (hi ++ lo).toInt) ∧ ovf fl = cf fl ∧
      Keeps statusBits s.flags fl)

/-- R413, R414, R423 point 5: where no divide error is raised, DIV and IDIV write quotient and remainder with
`n = q * v + r`, `|r| < |v|` and `r` of the sign of `n`; the six status flags are free values. -/
def Obligations.Divide : Prop :=
  ∀ s : State,
    (∀ e : RM8, divideErrors s (.divEb e) = false → ∃ q r fl n, exec (.divEb e) s =
        .next { s with regs := (s.regs.set8 .al q).set8 .ah r, flags := fl, draws := n } ∧
      let v := (s.readOp8 (rm8 s e)).toNat
      q.toNat * v + r.toNat = s.regs.ax.toNat ∧ r.toNat < v ∧ Keeps statusBits s.flags fl) ∧
    (∀ e : RM16, divideErrors s (.divEv e) = false → ∃ q r fl n, exec (.divEv e) s =
        .next { s with regs := { s.regs with ax := q, dx := r }, flags := fl, draws := n } ∧
      let v := (s.readOp16 (rm16 s e)).toNat
      q.toNat * v + r.toNat = 65536 * s.regs.dx.toNat + s.regs.ax.toNat ∧ r.toNat < v ∧
      Keeps statusBits s.flags fl) ∧
    (∀ e : RM8, divideErrors s (.idivEb e) = false → ∃ q r fl n, exec (.idivEb e) s =
        .next { s with regs := (s.regs.set8 .al q).set8 .ah r, flags := fl, draws := n } ∧
      let v := (s.readOp8 (rm8 s e)).toInt
      q.toInt * v + r.toInt = s.regs.ax.toInt ∧ r.toInt.natAbs < v.natAbs ∧
      (r.toInt ≠ 0 → (0 < r.toInt ↔ 0 < s.regs.ax.toInt)) ∧ Keeps statusBits s.flags fl) ∧
    (∀ e : RM16, divideErrors s (.idivEv e) = false → ∃ q r fl n, exec (.idivEv e) s =
        .next { s with regs := { s.regs with ax := q, dx := r }, flags := fl, draws := n } ∧
      let v := (s.readOp16 (rm16 s e)).toInt
      let d := (s.regs.dx ++ s.regs.ax).toInt
      q.toInt * v + r.toInt = d ∧ r.toInt.natAbs < v.natAbs ∧ (r.toInt ≠ 0 → (0 < r.toInt ↔ 0 < d)) ∧
      Keeps statusBits s.flags fl)

/-- R413, R414, R419: a zero divisor or base, or a quotient out of range, takes vector 0 with no register written and `next_IP`
as return address; the six status flags are free values. -/
def Obligations.DivideErrors : Prop :=
  ∀ (s : State) (i : Instr), divideErrors s i = true →
    ∃ fl n, exec i s = .next (interruptCall 0 { s with flags := fl, draws := n }) ∧ Keeps statusBits s.flags fl

/-- R415 to R420: AAA, AAS, DAA, DAS, AAM with a base other than 0, and AAD; the flags their rules leave undefined are free
values. -/
def Obligations.DecimalInstructions : Prop :=
  ∀ s : State,
    let al := (s.reg8 .al).toNat
    let ah := (s.reg8 .ah).toNat
    let low := decide (9 < al % 16) || af s.flags
    let high := decide (0x99 < al) || cf s.flags
    (∃ l h fl n, exec .aaa s =
        .next { s with regs := (s.regs.set8 .al l).set8 .ah h, flags := fl, draws := n } ∧
      l.toNat = (if low then al + 6 else al) % 16 ∧ h.toNat = (if low then ah + 1 else ah) % 256 ∧
      af fl = low ∧ cf fl = low ∧ Keeps statusBits s.flags fl) ∧
    (∃ l h fl n, exec .aas s =
        .next { s with regs := (s.regs.set8 .al l).set8 .ah h, flags := fl, draws := n } ∧
      l.toNat = (if low then al + 250 else al) % 16 ∧ h.toNat = (if low then ah + 255 else ah) % 256 ∧
      af fl = low ∧ cf fl = low ∧ Keeps statusBits s.flags fl) ∧
    (∃ l fl n, exec .daa s = .next { s with regs := s.regs.set8 .al l, flags := fl, draws := n } ∧
      l.toNat = (al + (if low then 6 else 0) + (if high then 0x60 else 0)) % 256 ∧
      af fl = low ∧ cf fl = high ∧ Szp l fl ∧ Keeps statusBits s.flags fl) ∧
    (∃ l fl n, exec .das s = .next { s with regs := s.regs.set8 .al l, flags := fl, draws := n } ∧
      (l.toNat : Int) = ((al : Int) - (if low then 6 else 0) - (if high then 0x60 else 0)) % 256 ∧
      af fl = low ∧ cf fl = (high || (low && (cf s.flags || decide (al < 6)))) ∧ Szp l fl ∧
      Keeps statusBits s.flags fl) ∧
    (∀ b : Byte, b ≠ 0 → ∃ l h fl n, exec (.aamIb b) s =
        .next { s with regs := (s.regs.set8 .al l).set8 .ah h, flags := fl, draws := n } ∧
      h.toNat * b.toNat + l.toNat = al ∧ l.toNat < b.toNat ∧ Szp l fl ∧ Keeps statusBits s.flags fl) ∧
    (∀ b : Byte, ∃ l fl n, exec (.aadIb b) s =
        .next { s with regs := (s.regs.set8 .al l).set8 .ah 0, flags := fl, draws := n } ∧
      l.toNat = (al + ah * b.toNat) % 256 ∧ Szp l fl ∧ Keeps statusBits s.flags fl)

/-- R421, R422: CBW and CWD keep the signed value of AL in AX and of AX in DX:AX, and change nothing else. -/
def Obligations.SignExtensions : Prop :=
  ∀ s : State,
    (∃ v : Word, exec .cbw s = .next { s with regs := { s.regs with ax := v } } ∧ v.toInt = (s.reg8 .al).toInt) ∧
    (∃ v : Word, exec .cwd s = .next { s with regs := { s.regs with dx := v } } ∧
      (v ++ s.regs.ax).toInt = s.regs.ax.toInt)

/-- R506 to R513: every shift and rotate, by 1 or by CL (0 to 255, not reduced): a count of 0 changes nothing; else result and
CF are the closed form of `k` one-bit steps, OF that of a count of 1. That every count above 0 uses up one draw number, also
where the spec leaves no flag undefined, is the DESIGN CHOICE of notes/assumptions/4.md. -/
def Obligations.ShiftsAndRotates : Prop :=
  ∀ (s : State) (op : ShiftOp) (i : Instr) (k : Nat),
    (∀ dst, Shift8 s op i k dst →
      (k = 0 → exec i s = .next s) ∧
      (0 < k → ∃ r fl, exec i s =
          .next ({ s with flags := fl, draws := s.draws + 1 }.writeOp8 r dst) ∧
        ShiftRule op k (s.readOp8 dst) s.flags r fl)) ∧
    (∀ dst, Shift16 s op i k dst →
      (k = 0 → exec i s = .next s) ∧
      (0 < k → ∃ r fl, exec i s =
          .next ({ s with flags := fl, draws := s.draws + 1 }.writeOp16 r dst) ∧
        ShiftRule op k (s.readOp16 dst) s.flags r fl))

/-! ### Data transfer -/

/-- R301, R302, R304 to R306: every MOV form that does not load a segment register writes its source to its destination. -/
def Obligations.MovForms : Prop :=
  ∀ (s : State) (i : Instr),
    (∀ dst src, Mov8 s i dst src → exec i s = .next (s.writeOp8 (s.readOp8 src) dst)) ∧
    (∀ dst src, Mov16 s i dst src → exec i s = .next (s.writeOp16 (s.readOp16 src) dst))

/-- R303, R311, R806: MOV to and POP of a segment register load it and set the interrupt delay; no other register but SP of
the pops changes. -/
def Obligations.SegmentLoads : Prop :=
  ∀ s : State,
    (∀ e, exec (.movSwEwEs e) s =
      .next { s with segs := { s.segs with es := s.readOp16 (rm16 s e) }, intDelay := true }) ∧
    (∀ e, exec (.movSwEwSsDs e .ss) s =
      .next { s with segs := { s.segs with ss := s.readOp16 (rm16 s e) }, intDelay := true }) ∧
    (∀ e, exec (.movSwEwSsDs e .ds) s =
      .next { s with segs := { s.segs with ds := s.readOp16 (rm16 s e) }, intDelay := true }) ∧
    (let v := s.segRead16 s.segs.ss s.regs.sp
     let r := { s.regs with sp := s.regs.sp + 2 }
     exec .popEs s = .next { s with regs := r, segs := { s.segs with es := v }, intDelay := true } ∧
     exec .popSs s = .next { s with regs := r, segs := { s.segs with ss := v }, intDelay := true } ∧
     exec .popDs s = .next { s with regs := r, segs := { s.segs with ds := v }, intDelay := true })

/-- R300, R307 to R309, R326: every push decrements SP by 2 and stores the word at the new SS:SP, low byte first; PUSH SP
stores the decremented SP. -/
def Obligations.PushForms : Prop :=
  ∀ (s : State) (i : Instr) (v : Word), Pushes s i v →
    exec i s = .next ({ s with regs := { s.regs with sp := s.regs.sp - 2 } }.segWrite16 s.segs.ss (s.regs.sp - 2) v) ∧
    ∃ t, exec i s = .next t ∧ t.regs.sp.toNat = (s.regs.sp.toNat + 65534) % 65536 ∧
      t.segRead16 s.segs.ss t.regs.sp = v

/-- R300, R310, R312: every pop into a register or memory operand reads the word at SS:SP, increments SP by 2 and then writes
the operand, whose address was formed before; POP SP leaves the popped word. -/
def Obligations.PopForms : Prop :=
  ∀ (s : State) (i : Instr) (dst : Operand16), Pops s i dst →
    exec i s = .next ({ s with regs := { s.regs with sp := s.regs.sp + 2 } }.writeOp16
      (s.segRead16 s.segs.ss s.regs.sp) dst) ∧
    ∃ t, exec i s = .next t ∧ t.readOp16 dst = s.segRead16 s.segs.ss s.regs.sp ∧
      (dst ≠ .reg .sp → t.regs.sp.toNat = (s.regs.sp.toNat + 2) % 65536)

/-- R313, R314, R315: after XCHG each operand holds what the other held; NOP changes nothing. -/
def Obligations.Exchange : Prop :=
  ∀ (s : State) (i : Instr),
    (∀ (e : RM8) (g : Reg8), ∃ t, exec (.xchgEbGb e g) s = .next t ∧
      t = (s.writeOp8 (s.reg8 g) (rm8 s e)).writeOp8 (s.readOp8 (rm8 s e)) (.reg g) ∧
      t.readOp8 (rm8 s e) = s.reg8 g ∧ t.reg8 g = s.readOp8 (rm8 s e)) ∧
    (∀ a b, Xchg16 s i a b → ∃ t, exec i s = .next t ∧
      t = (s.writeOp16 (s.readOp16 b) a).writeOp16 (s.readOp16 a) b ∧
      t.readOp16 a = s.readOp16 b ∧ t.readOp16 b = s.readOp16 a) ∧
    exec .nop s = .next s

/-- R320 to R323: XLAT, LEA, LDS and LES; LEA reads no memory, LDS and LES read both words before either register is
written, and none sets the interrupt delay. -/
def Obligations.AddressLoads : Prop :=
  ∀ s : State,
    (∃ off : Word, off.toNat = (s.regs.bx.toNat + (s.reg8 .al).toNat) % 65536 ∧
      exec .xlat s = .next (s.writeOp8 (s.segRead8 (segOr s .ds) off) (.reg .al))) ∧
    (∀ m g, exec (.leaGvM m g) s = .next (s.writeOp16 (ea s m) (.reg g))) ∧
    (∀ m g,
      let off := s.segRead16 (memSeg s m) (ea s m)
      let seg := s.segRead16 (memSeg s m) (ea s m + 2)
      exec (.ldsGvMp m g) s = .next { s.writeOp16 off (.reg g) with segs := { s.segs with ds := seg } } ∧
      exec (.lesGvMp m g) s = .next { s.writeOp16 off (.reg g) with segs := { s.segs with es := seg } })

/-- R324, R325: LAHF copies the low byte of FLAGS to AH; SAHF replaces SF, ZF, AF, PF and CF by bits 7, 6, 4, 2 and 0 of AH
and keeps every other bit. -/
def Obligations.LahfAndSahf : Prop :=
  ∀ s : State,
    (∃ v : Byte, exec .lahf s = .next (s.writeOp8 v (.reg .ah)) ∧ v.toNat = s.flags.toNat % 256) ∧
    (∃ fl, exec .sahf s = .next { s with flags := fl } ∧
      (∀ k ∈ [0, 2, 4, 6, 7], fl.getLsbD k = (s.reg8 .ah).getLsbD k) ∧ Keeps [0, 2, 4, 6, 7] s.flags fl)

/-- R160, R162, R316 to R319: IN and OUT at the fixed port or the port in DX; the 16-bit forms are two byte accesses, the low
byte at `p` first, then the high byte at `(p + 1) mod 2^16`. -/
def Obligations.InAndOut : Prop :=
  ∀ (s : State) (i8 i16 o8 o16 : Instr) (p : Word),
    (∃ v : Byte, p.toNat = v.toNat ∧ i8 = .inAlIb v ∧ i16 = .inAxIb v ∧ o8 = .outIbAl v ∧ o16 = .outIbAx v) ∨
      (p = s.regs.dx ∧ i8 = .inAlDx ∧ i16 = .inAxDx ∧ o8 = .outDxAl ∧ o16 = .outDxAx) →
    ∃ p1 : Word, p1.toNat = (p.toNat + 1) % 65536 ∧
    exec i8 s = .next ((ioReadState p s).writeOp8 (ioReadByte p s) (.reg .al)) ∧
    (let t := (ioReadState p s).writeOp8 (ioReadByte p s) (.reg .al)
     exec i16 s = .next ((ioReadState p1 t).writeOp8 (ioReadByte p1 t) (.reg .ah))) ∧
    exec o8 s = .next (ioWrite p (s.reg8 .al) s) ∧
    exec o16 s = .next (ioWrite p1 (s.reg8 .ah) (ioWrite p (s.reg8 .al) s))

/-- R163, R164, R816: who answers a port. A PIT port reaches register `(p - 0x40) AND 3` of the PIT and nothing else; a
keyboard or VGA port answers a free value, fresh at each read, and absorbs writes; any other port reads 0x00 and ignores
writes. That the free value is an opaque function of the draw number and the port, and that a read uses up a draw, is the
DESIGN CHOICE of notes/assumptions/4.md. -/
def Obligations.PortRouting : Prop :=
  ∀ (s : State) (p : Word) (v : Byte),
    (0x40 ≤ p.toNat → p.toNat ≤ 0x5F →
      ioReadByte p s = s.pit.readByte ((p.toNat - 0x40) % 4) ∧
      ioReadState p s = { s with pit := s.pit.afterRead ((p.toNat - 0x40) % 4) } ∧
      ioWrite p v s = { s with pit := s.pit.write ((p.toNat - 0x40) % 4) v }) ∧
    ((0x60 ≤ p.toNat ∧ p.toNat ≤ 0x64) ∨ (0x3C0 ≤ p.toNat ∧ p.toNat ≤ 0x3DF) →
      ioReadByte p s = Config.extIo s.draws p ∧ ioReadState p s = { s with draws := s.draws + 1 } ∧
      ioWrite p v s = s) ∧
    (¬(0x40 ≤ p.toNat ∧ p.toNat ≤ 0x64) → ¬(0x3C0 ≤ p.toNat ∧ p.toNat ≤ 0x3DF) →
      ioReadByte p s = 0 ∧ ioReadState p s = s ∧ ioWrite p v s = s)

/-! ### Strings -/

/-- R550 to R558: with no repeat prefix a string instruction performs exactly one iteration, whatever CX; with one, a step does
nothing where CX = 0, else one iteration with CX decremented, and leaves IP at `start_IP` unless the repeat ends. -/
def Obligations.StringInstructions : Prop :=
  ∀ (s : State) (i : Instr), i ∈ stringInstrs →
    (s.tr.rep = none → ∃ t, exec i s = .next t ∧ Iteration s i t) ∧
    (∀ r, s.tr.rep = some r → s.regs.cx = 0 → exec i s = .next s) ∧
    (∀ r, s.tr.rep = some r → s.regs.cx ≠ 0 → ∃ t, Iteration s i t ∧
      (let u := { t with regs := { t.regs with cx := s.regs.cx - 1 } }
       (repeatEnds i r u → exec i s = .next u) ∧
       (¬ repeatEnds i r u → exec i s = .next { u with ip := s.tr.startIp })))

/-! ### Control transfer -/

/-- R600 to R605: the jumps change IP, and CS for the far ones, and nothing else; relative targets wrap modulo 2^16. -/
def Obligations.Jumps : Prop :=
  ∀ s : State,
    (∀ v : Byte, ∃ t : Word, exec (.jmpJb v) s = .next { s with ip := t } ∧
      (t.toNat : Int) = (s.ip.toNat + v.toInt) % 65536) ∧
    (∀ v : Word, ∃ t : Word, exec (.jmpJv v) s = .next { s with ip := t } ∧
      t.toNat = (s.ip.toNat + v.toNat) % 65536) ∧
    (∀ off seg, exec (.jmpAp off seg) s = .next { s with ip := off, segs := { s.segs with cs := seg } }) ∧
    (∀ e, exec (.jmpEv e) s = .next { s with ip := s.readOp16 (rm16 s e) }) ∧
    (∀ m, exec (.jmpMp m) s =
      .next { s with
        ip := s.segRead16 (memSeg s m) (ea s m)
        segs := { s.segs with cs := s.segRead16 (memSeg s m) (ea s m + 2) } })

/-- R606 to R613: a call pushes `next_IP` (a far call CS first) and goes to its target, read before any push; a return pops
what a call pushed and then releases `Iw` bytes. -/
def Obligations.CallsAndReturns : Prop :=
  ∀ s : State,
    let sp2 := { s with regs := { s.regs with sp := s.regs.sp - 2 } }.segWrite16 s.segs.ss (s.regs.sp - 2) s.ip
    let sp4 := ({ s with regs := { s.regs with sp := s.regs.sp - 4 } }.segWrite16 s.segs.ss (s.regs.sp - 2)
      s.segs.cs).segWrite16 s.segs.ss (s.regs.sp - 4) s.ip
    let top := s.segRead16 s.segs.ss s.regs.sp
    let below := s.segRead16 s.segs.ss (s.regs.sp + 2)
    (∀ v : Word, ∃ t : Word, exec (.callJv v) s = .next { sp2 with ip := t } ∧
      t.toNat = (s.ip.toNat + v.toNat) % 65536) ∧
    (∀ e, exec (.callEv e) s = .next { sp2 with ip := s.readOp16 (rm16 s e) }) ∧
    (∀ off seg, exec (.callAp off seg) s = .next { sp4 with ip := off, segs := { s.segs with cs := seg } }) ∧
    (∀ m, exec (.callMp m) s =
      .next { sp4 with
        ip := s.segRead16 (memSeg s m) (ea s m)
        segs := { s.segs with cs := s.segRead16 (memSeg s m) (ea s m + 2) } }) ∧
    exec .ret s = .next { s with ip := top, regs := { s.regs with sp := s.regs.sp + 2 } } ∧
    (∀ n : Word, ∃ sp : Word, sp.toNat = (s.regs.sp.toNat + 2 + n.toNat) % 65536 ∧
      exec (.retIw n) s = .next { s with ip := top, regs := { s.regs with sp := sp } }) ∧
    exec .retf s =
      .next { s with ip := top, segs := { s.segs with cs := below }, regs := { s.regs with sp := s.regs.sp + 4 } } ∧
    (∀ n : Word, ∃ sp : Word, sp.toNat = (s.regs.sp.toNat + 4 + n.toNat) % 65536 ∧
      exec (.retfIw n) s =
        .next { s with ip := top, segs := { s.segs with cs := below }, regs := { s.regs with sp := sp } })

/-- R614 to R630: each conditional jump goes to `next_IP + disp` exactly when its condition holds of FLAGS, else changes
nothing. -/
def Obligations.ConditionalJumps : Prop :=
  ∀ (s : State) (i : Instr) (v : Byte) (taken : Prop), Jcc s.flags i v taken →
    (taken → ∃ t : Word, exec i s = .next { s with ip := t } ∧ (t.toNat : Int) = (s.ip.toNat + v.toInt) % 65536) ∧
    (¬ taken → exec i s = .next s)

/-- R614 to R630, R407: a CMP of any form, 8 or 16 bits wide, changes nothing but FLAGS, and the conditional jump executed
after it is taken exactly where the operands, read as unsigned numbers (JB, JNB, JBE, JA), as bits (JZ, JNZ) or as signed
numbers (JL, JGE, JLE, JG), are in the order its name says; a jump not taken changes nothing. -/
def Obligations.ConditionsAfterCompare : Prop :=
  ∀ (s : State) (i : Instr) (disp : Byte),
    (∀ d v : Operand8, Binary8 s .cmp i d v → ∃ t, exec i s = .next t ∧ t = { s with flags := t.flags } ∧
      JumpsInOrder t disp (s.readOp8 d) (s.readOp8 v)) ∧
    (∀ d v : Operand16, Binary16 s .cmp i d v → ∃ t, exec i s = .next t ∧ t = { s with flags := t.flags } ∧
      JumpsInOrder t disp (s.readOp16 d) (s.readOp16 v))

/-- R631 to R634: LOOP, LOOPZ and LOOPNZ decrement CX and jump while it is not 0 (and ZF is as named); JCXZ jumps where CX is
0 and changes no register. -/
def Obligations.Loops : Prop :=
  ∀ (s : State) (v : Byte), ∃ c t : Word, c.toNat = (s.regs.cx.toNat + 65535) % 65536 ∧
    (t.toNat : Int) = (s.ip.toNat + v.toInt) % 65536 ∧
    (let u := { s with regs := { s.regs with cx := c } }
     exec (.loopJb v) s = .next (if c ≠ 0 then { u with ip := t } else u) ∧
     exec (.loopzJb v) s = .next (if c ≠ 0 ∧ zf s.flags = true then { u with ip := t } else u) ∧
     exec (.loopnzJb v) s = .next (if c ≠ 0 ∧ zf s.flags = false then { u with ip := t } else u)) ∧
    exec (.jcxzJb v) s = .next (if s.regs.cx = 0 then { s with ip := t } else s)

/-- R635 to R638: INT n, INT3 (vector 3) and INTO (vector 4 where OF = 1, else nothing) perform the interrupt-call with
`next_IP` as return address; IRET pops IP, CS and all 16 bits of FLAGS, and sets the interrupt delay where `IRET_DELAY`. -/
def Obligations.InterruptInstructions : Prop :=
  ∀ s : State,
    (∀ v, exec (.intIb v) s = .next (interruptCall v s)) ∧
    exec .int3 s = .next (interruptCall 3 s) ∧
    (ovf s.flags = true → exec .into s = .next (interruptCall 4 s)) ∧
    (ovf s.flags = false → exec .into s = .next s) ∧
    exec .iret s =
      .next { s with
        ip := s.segRead16 s.segs.ss s.regs.sp
        segs := { s.segs with cs := s.segRead16 s.segs.ss (s.regs.sp + 2) }
        flags := s.segRead16 s.segs.ss (s.regs.sp + 4)
        regs := { s.regs with sp := s.regs.sp + 6 }
        intDelay := s.intDelay || s.params.iretDelay }

/-! ### Processor control -/

/-- R700 to R709: the flag instructions set or clear their one bit; STI also sets the delay; HLT halts; WAIT and ESC do
nothing. -/
def Obligations.ProcessorControl : Prop :=
  ∀ s : State,
    (∃ fl, exec .clc s = .next { s with flags := fl } ∧ cf fl = false ∧ Keeps [0] s.flags fl) ∧
    (∃ fl, exec .stc s = .next { s with flags := fl } ∧ cf fl = true ∧ Keeps [0] s.flags fl) ∧
    (∃ fl, exec .cmc s = .next { s with flags := fl } ∧ cf fl = !cf s.flags ∧ Keeps [0] s.flags fl) ∧
    (∃ fl, exec .cld s = .next { s with flags := fl } ∧ df fl = false ∧ Keeps [10] s.flags fl) ∧
    (∃ fl, exec .std s = .next { s with flags := fl } ∧ df fl = true ∧ Keeps [10] s.flags fl) ∧
    (∃ fl, exec .cli s = .next { s with flags := fl } ∧ ie fl = false ∧ Keeps [9] s.flags fl) ∧
    (∃ fl, exec .sti s = .next { s with flags := fl, intDelay := true } ∧ ie fl = true ∧ Keeps [9] s.flags fl) ∧
    exec .hlt s = .next { s with halted := true } ∧
    exec .wait s = .next s ∧
    (∀ e x, exec (.esc0Ev e x) s = .next s ∧ exec (.esc1Ev e x) s = .next s ∧ exec (.esc2Ev e x) s = .next s ∧
      exec (.esc3Ev e x) s = .next s ∧ exec (.esc4Ev e x) s = .next s ∧ exec (.esc5Ev e x) s = .next s ∧
      exec (.esc6Ev e x) s = .next s ∧ exec (.esc7Ev e x) s = .next s)

/-- R201, R202, R710, R711: a prefix only records itself in the decode-transient state; of several segment overrides, and of
several repeat prefixes, the last one wins, and LOCK accumulates (`is` is any run of prefixes in fetch order). -/
def Obligations.PrefixesRecord : Prop :=
  ∀ s : State,
    let noted (b : Byte) (t : Transient) : State :=
      { s with tr := { t with prefixBytes := s.tr.prefixBytes ++ [b] } }
    exec .segEs s = .next (noted 0x26 { s.tr with segOvr := some .es }) ∧
    exec .segCs s = .next (noted 0x2E { s.tr with segOvr := some .cs }) ∧
    exec .segSs s = .next (noted 0x36 { s.tr with segOvr := some .ss }) ∧
    exec .segDs s = .next (noted 0x3E { s.tr with segOvr := some .ds }) ∧
    exec .lock s = .next (noted 0xF0 { s.tr with lock := true }) ∧
    exec .repne s = .next (noted 0xF2 { s.tr with rep := some .repne }) ∧
    exec .rep s = .next (noted 0xF3 { s.tr with rep := some .rep }) ∧
    ∀ is : List Instr, (∀ i ∈ is, i.isPrefix = true) →
      ∃ t, runPrefixes is s = some t ∧
        t.tr.segOvr = ((is.filterMap segOverride).getLast?.or s.tr.segOvr) ∧
        t.tr.rep = ((is.filterMap repeatPrefix).getLast?.or s.tr.rep) ∧
        t.tr.lock = (s.tr.lock || decide (Instr.lock ∈ is)) ∧
        t = { s with tr := t.tr }

/-- R712, R713, R808, R832: the callback trap runs the registered handler inside the step with IP past the stub; an id with no
registry entry, and an undefined encoding, end the machine before anything executes, with IP back at `start_IP` and nothing
else changed; `UndefinedOpcode` records the bytes fetched so far, CS and `start_IP`. Of this the model's own: that a handler
is an opaque function of its number, the draw number and the state, and that its run uses up a draw, is the DESIGN CHOICE of
notes/assumptions/4.md; that its actions stop at the first that ends the machine is DEDUCED (notes/assumptions/15.md), as is IP
at `start_IP` after UnknownCallback (notes/assumptions/7.md). -/
def Obligations.TrapOpcodes : Prop :=
  ∀ (s : State) (rm : BitVec 3) (id : Word) (op : Byte),
    (s.registry.find id = none → exec (.callbackIw rm id) s =
      .next { s with status := .fault (.unknownCallback id), ip := s.tr.startIp }) ∧
    (∀ h, s.registry.find id = some h → exec (.callbackIw rm id) s =
      .next (hostActs (callbackHandler h s.draws s) { s with draws := s.draws + 1 })) ∧
    exec (.ud op none) s = .next { s with
      status := .fault (.undefinedOpcode (s.tr.prefixBytes ++ [op]) s.segs.cs s.tr.startIp)
      ip := s.tr.startIp } ∧
    ∀ m, exec (.ud op (some m)) s = .next { s with
      status := .fault (.undefinedOpcode (s.tr.prefixBytes ++ [op, m]) s.segs.cs s.tr.startIp)
      ip := s.tr.startIp }

/-! ### The PIT -/

/-- R817 to R822: a write to the control port: SC = 11 is ignored, RW = 00 latches the counting element once, RW ≠ 00
reprograms and stops the channel; a data-port write stores the count by the access mode and activates the channel once the
count is whole, a count of 0 meaning 65536. -/
def Obligations.PitWrites : Prop :=
  (∀ (p : Pit) (v : Byte) (sc rw : Nat), v.toNat / 64 = sc → v.toNat / 16 % 4 = rw →
    (sc = 3 → p.write 3 v = p) ∧
    (sc < 3 → ∀ j, j < 3 → j ≠ sc → (p.write 3 v).channel j = p.channel j) ∧
    (sc < 3 → rw = 0 → (p.write 3 v).channel sc =
      if (p.channel sc).latched then p.channel sc
      else { p.channel sc with latch := BitVec.ofNat 16 (p.channel sc).ce, latched := true }) ∧
    (sc < 3 → rw ≠ 0 → (p.write 3 v).channel sc = { p.channel sc with
      access := if rw = 1 then .lsb else if rw = 2 then .msb else .lsbMsb
      mode := BitVec.ofNat 3 (v.toNat / 2)
      bcd := decide (v.toNat % 2 = 1)
      active := false, latched := false, wtoggle := false, rtoggle := false })) ∧
  (∀ (p : Pit) (i : Nat) (v : Byte), i < 3 →
    let c := p.channel i
    let d := (p.write i v).channel i
    let act (n : Word) (t : Bool) : Channel :=
      { c with
        count := n, wtoggle := t, reload := if n = 0 then 65536 else n.toNat, ce := if n = 0 then 65536 else n.toNat
        active := true }
    (∀ j, j < 3 → j ≠ i → (p.write i v).channel j = p.channel j) ∧
    (c.access = .lsb → d = act (BitVec.ofNat 16 v.toNat) c.wtoggle) ∧
    (c.access = .msb → d = act (BitVec.ofNat 16 (256 * v.toNat)) c.wtoggle) ∧
    (c.access = .lsbMsb → c.wtoggle = false → d = { c with wlow := v, wtoggle := true }) ∧
    (c.access = .lsbMsb → c.wtoggle = true → d = act (BitVec.ofNat 16 (256 * v.toNat + c.wlow.toNat)) false))

/-- R816, R823: a read of a data port answers a byte of the latched value, else of the counting element (65536 read as 0), by
the access mode and in LSB_MSB mode by the read toggle, and changes nothing but the toggle and the latch flag (so never
`count`, `ce` or `active`), of that channel only; a read of the control port answers 0x00 and changes nothing. Two reads of an
LSB_MSB channel with a latched value give its low and then its high byte and release the latch, whatever cycles pass between
them. -/
def Obligations.PitLatchedRead : Prop :=
  (∀ c : Channel,
    let v : Nat := if c.latched then c.latch.toNat else c.ce % 65536
    (c.access = .lsb → c.readByte.toNat = v % 256 ∧ c.afterRead = { c with latched := false }) ∧
    (c.access = .msb → c.readByte.toNat = v / 256 ∧ c.afterRead = { c with latched := false }) ∧
    (c.access = .lsbMsb → c.rtoggle = false → c.readByte.toNat = v % 256 ∧ c.afterRead = { c with rtoggle := true }) ∧
    (c.access = .lsbMsb → c.rtoggle = true →
      c.readByte.toNat = v / 256 ∧ c.afterRead = { c with rtoggle := false, latched := false })) ∧
  (∀ (c : Channel) (n : Nat), c.access = .lsbMsb → c.rtoggle = false → c.latched = true →
    let d := c.afterRead.runCycles n
    256 * d.readByte.toNat + c.readByte.toNat = c.latch.toNat ∧
    d.afterRead.latched = false ∧ d.afterRead.rtoggle = false) ∧
  (∀ p : Pit, p.readByte 3 = 0 ∧ p.afterRead 3 = p ∧
    ∀ i, i < 3 → p.readByte i = (p.channel i).readByte ∧ (p.afterRead i).channel i = (p.channel i).afterRead ∧
      ∀ j, j < 3 → j ≠ i → (p.afterRead i).channel j = p.channel j)

/-- R824, R825: `run_cycles(n)` runs each of the three channels for `n` cycles: an active channel counts down and reloads at zero, `n` cycles and then `m` more are `n + m`
cycles, an inactive one does not change, and the machine's INTR with vector 8 is raised exactly when channel 0 reaches zero
within them. -/
def Obligations.PitRunCycles : Prop :=
  (∀ (c : Channel) (n m : Nat), ChannelInv c →
    (c.active = false → c.runCycles n = c) ∧
    (c.active = true → n < c.ce → c.runCycles n = { c with ce := c.ce - n }) ∧
    (c.active = true → c.ce ≤ n → ∃ e k, c.runCycles n = { c with ce := e } ∧ 1 ≤ e ∧ e ≤ c.reload ∧
      n + e = c.ce + (k + 1) * c.reload) ∧
    (c.runCycles n).runCycles m = c.runCycles (n + m)) ∧
  (∀ (p : Pit) (n i : Nat), i < 3 → (p.runCycles n).channel i = (p.channel i).runCycles n) ∧
  (∀ (s : State) (n : Nat),
    (s.pit.c0.active = true ∧ s.pit.c0.ce ≤ n → runPit n s =
      { s with pit := s.pit.runCycles n, intrPending := true, intrVector := 8 }) ∧
    (¬(s.pit.c0.active = true ∧ s.pit.c0.ce ≤ n) → runPit n s = { s with pit := s.pit.runCycles n }))

/-! ### The MCB allocator -/

/-- R756 to R763: an allocation on any chain of blocks: every run of free blocks becomes one, the first, the smallest (the
first of several) or the last free block that is large enough is chosen and split, front or tail, or where none is large
enough OutOfMemory answers the largest free size; the chain then holds exactly the blocks so computed, and nothing changes but
the headers' bytes and the answer, which the model keeps (notes/assumptions/8.md). In particular, from a chain of one free
block of `n` paragraphs: too large a request answers OutOfMemory(n); else first fit and best fit take the front, last fit the
tail (the whole block where it fits exactly), the remainder is free, and the chain is valid. -/
def Obligations.McbAllocate : Prop :=
  (∀ (s : State) (bs : List Block) (r pid : Word) (st : Strategy), Chain s s.params.mcbBase.toNat bs → bs ≠ [] → pid ≠ 0 →
    let b := s.params.mcbBase.toNat
    let t := hostAct (.mcb (.allocate r st pid)) s
    let x := allocated b bs r.toNat st pid
    Chain t b x.1 ∧ mcbValidate t = none ∧ t = { s with mem := t.mem, mcbResult := some x.2 } ∧
    KeepsOutside (placed b bs ++ placed b x.1) s t) ∧
  (∀ (s : State) (n : Nat) (r pid : Word), SingleFree s n → s.params.mcbBase.toNat + 1 + n ≤ 65536 → pid ≠ 0 →
    let b := s.params.mcbBase.toNat
    (n < r.toNat → ∀ st, mcbAllocate s r st pid = (s, .outOfMemory n)) ∧
    (r.toNat ≤ n → ∀ st, st ≠ .lastFit ∨ r.toNat = n → ∃ t, mcbAllocate s r st pid = (t, .ok (b + 1)) ∧
      mcbOwner t b = pid ∧ mcbSize t b = r.toNat ∧ mcbValidate t = none ∧ t = { s with mem := t.mem } ∧
      (r.toNat < n → mcbOwner t (b + 1 + r.toNat) = 0 ∧ mcbSize t (b + 1 + r.toNat) = n - r.toNat - 1)) ∧
    (r.toNat < n → ∃ t, mcbAllocate s r .lastFit pid = (t, .ok (b + 1 + n - r.toNat)) ∧
      mcbOwner t b = 0 ∧ mcbSize t b = n - r.toNat - 1 ∧ mcbOwner t (b + n - r.toNat) = pid ∧
      mcbSize t (b + n - r.toNat) = r.toNat ∧ mcbValidate t = none ∧ t = { s with mem := t.mem }))

/-- R753 to R755, R764, R766 to R768: the boot chain is one free block that spans the whole range, and it is valid; an
operation that answers Ok leaves a valid chain; one that answers Corrupt(h) ends the machine in `McbCorrupt(h)`; owner 0 is
refused with no change; Free of a segment whose header has no valid signature is corrupt; no operation changes a register. The
answer is kept in a field of the model's own (notes/assumptions/8.md); that segment 0 has its header at 0xFFFF is the DESIGN
CHOICE of notes/assumptions/9.md. -/
def Obligations.McbResults : Prop :=
  ∀ (s : State) (op : McbOp),
    let t := hostAct (.mcb op) s
    (op = .boot → s.params.mcbBase.toNat + 1 ≤ s.params.mcbTop.toNat → s.params.mcbTop.toNat ≤ 65536 →
      SingleFree t (s.params.mcbTop.toNat - s.params.mcbBase.toNat - 1) ∧ mcbValidate t = none) ∧
    (∀ seg, t.mcbResult = some (.ok seg) → mcbValidate t = none) ∧
    (∀ h, t.mcbResult = some (.corrupt h) → t.status = .fault (.mcbCorrupt h)) ∧
    (∀ r st, op = .allocate r st 0 → t = { s with mcbResult := some .refused }) ∧
    (∀ seg, op = .free seg → mcbSig s (seg - 1).toNat ≠ 0x4D → mcbSig s (seg - 1).toNat ≠ 0x5A →
      t = { s with mcbResult := some (.corrupt (seg - 1).toNat),
                   status := .fault (.mcbCorrupt (seg - 1).toNat) }) ∧
    t.regs = s.regs ∧ t.segs = s.segs ∧ t.flags = s.flags ∧ t.ip = s.ip ∧ t.pit = s.pit

/-! ### Reset -/

/-- R78, R828: the state right after reset holds what the launch table gives: nothing pending, not halted, no delay, running,
no decode-transient state, the PIT at construction (as no boot programmed it, notes/assumptions/21.md). Its CS, IP, SS, SP, DS,
ES, the seven other registers, FLAGS and memory are the fields of a launch record the model chose, as is `intr_vector`
(notes/assumptions/1.md); the parameters of R10 have their defaults, the open ones at values the model chose
(notes/assumptions/2.md). -/
def Obligations.ResetState : Prop :=
  let s := State.reset
  s.nmiPending = false ∧ s.intrPending = false ∧ s.intDelay = false ∧ s.halted = false ∧ s.trapPending = false ∧
  s.status = .running ∧ s.tr = .none ∧
  (∀ c ∈ [s.pit.c0, s.pit.c1, s.pit.c2], c.count = 0 ∧ c.reload = 65536 ∧ c.ce = 0 ∧ c.active = false ∧
    c.latched = false ∧ c.latch = 0 ∧ c.access = .lsbMsb ∧ c.mode = 0 ∧ c.bcd = false ∧ c.wtoggle = false ∧
    c.rtoggle = false ∧ c.wlow = 0) ∧
  s.segs.cs = 0x0100 ∧ s.ip = 0x0100 ∧ s.segs.ss = 0x0200 ∧ s.regs.sp = 0x0100 ∧ s.segs.ds = 0x0200 ∧ s.segs.es = 0x0200 ∧
  (∀ r : Reg16, r ≠ .sp → s.reg16 r = 0) ∧ s.flags = 0x0002 ∧ s.intrVector = 0 ∧ s.mem = [] ∧ s.registry = [] ∧
  s.params.singleStep = false ∧ s.params.iretDelay = true ∧ s.params.idivMinQuotientFaults = true ∧
  s.params.callbackSegment = 0xF000 ∧ s.params.mcbBase = 0x1000 ∧ s.params.mcbTop = 0x1100 ∧
  s.params.pitFrequency = 1193182 ∧ s.params.cpuFrequency = 4772727

/-! ### More of the MCB allocator -/

/-- R756, R764, R765: Coalesce, Free and Reallocate on any chain of blocks. Coalesce absorbs the free blocks right behind the
header it is given, whatever that block's owner; Free makes the block's owner 0 and coalesces nothing; Reallocate coalesces
forward, answers TooSmall with the coalesced size (which stays) where the request is larger, and else splits off a free
remainder, the owner kept. The chain then holds exactly the blocks so computed, and nothing changes but headers' bytes and the
answer. That the host calls Coalesce and that it answers nothing, that segments are 16-bit words, and the field of the answer
are the model's choices (notes/assumptions/18.md, 19.md, 8.md). -/
def Obligations.McbChainOperations : Prop :=
  (∀ (s : State) (h : Word) (b : Block) (bs : List Block), Chain s h.toNat (b :: bs) →
    let t := hostAct (.mcb (.coalesce h)) s
    Chain t h.toNat (absorb b bs) ∧ t = { s with mem := t.mem, mcbResult := none } ∧
    KeepsOutside [(h.toNat, b)] s t) ∧
  (∀ (s : State) (before after : List Block) (b : Block) (seg m : Word),
    let base := s.params.mcbBase.toNat
    Chain s base (before ++ b :: after) → seg.toNat = base + span before + 1 →
    (let t := hostAct (.mcb (.free seg)) s
     Chain t base (before ++ { b with owner := 0 } :: after) ∧ mcbValidate t = none ∧
     t = { s with mem := t.mem, mcbResult := some (.ok seg.toNat) } ∧
     ∀ a, a ≠ 16 * (seg.toNat - 1) + 1 → a ≠ 16 * (seg.toNat - 1) + 2 → t.memRead8 a = s.memRead8 a) ∧
    (let t := hostAct (.mcb (.reallocate seg m)) s
     let x := resized seg.toNat m.toNat b after
     Chain t base (before ++ x.1) ∧ mcbValidate t = none ∧ t = { s with mem := t.mem, mcbResult := some x.2 } ∧
     KeepsOutside (placed (seg.toNat - 1) x.1) s t))
end

