-- ==== Sys2Proof/Laws/Flags.lean ====
section
/-! SUPPORT. What each FLAGS computation does to each bit of the FLAGS word. -/

namespace Sys2Proof.Machine

theorem Flag.bit_lt (f : Flag) : f.bit < 16 := by cases f <;> decide

theorem getLsbD_setFlag (w : Word) (f : Flag) (b : Bool) (k : Nat) :
    (setFlag w f b).getLsbD k = if k = f.bit then b else w.getLsbD k := by
  have hf := f.bit_lt
  unfold setFlag
  by_cases hk : k = f.bit
  · subst hk
    cases b <;> simp [hf]
  · by_cases h16 : k < 16
    · cases b <;> simp [hk, h16, Nat.sub_eq_zero_iff_le]
      omega
    · rw [BitVec.getLsbD_of_ge _ _ (by omega), BitVec.getLsbD_of_ge _ _ (by omega)]; simp [hk]

/-! The same for each flag, with its bit number. -/

theorem getLsbD_setFlag_cf (w : Word) (b : Bool) (k : Nat) :
    (setFlag w .cf b).getLsbD k = if k = 0 then b else w.getLsbD k := getLsbD_setFlag w .cf b k

theorem getLsbD_setFlag_pf (w : Word) (b : Bool) (k : Nat) :
    (setFlag w .pf b).getLsbD k = if k = 2 then b else w.getLsbD k := getLsbD_setFlag w .pf b k

theorem getLsbD_setFlag_af (w : Word) (b : Bool) (k : Nat) :
    (setFlag w .af b).getLsbD k = if k = 4 then b else w.getLsbD k := getLsbD_setFlag w .af b k

theorem getLsbD_setFlag_zf (w : Word) (b : Bool) (k : Nat) :
    (setFlag w .zf b).getLsbD k = if k = 6 then b else w.getLsbD k := getLsbD_setFlag w .zf b k

theorem getLsbD_setFlag_sf (w : Word) (b : Bool) (k : Nat) :
    (setFlag w .sf b).getLsbD k = if k = 7 then b else w.getLsbD k := getLsbD_setFlag w .sf b k

theorem getLsbD_setFlag_tf (w : Word) (b : Bool) (k : Nat) :
    (setFlag w .tf b).getLsbD k = if k = 8 then b else w.getLsbD k := getLsbD_setFlag w .tf b k

theorem getLsbD_setFlag_ie (w : Word) (b : Bool) (k : Nat) :
    (setFlag w .ie b).getLsbD k = if k = 9 then b else w.getLsbD k := getLsbD_setFlag w .ie b k

theorem getLsbD_setFlag_df (w : Word) (b : Bool) (k : Nat) :
    (setFlag w .df b).getLsbD k = if k = 10 then b else w.getLsbD k := getLsbD_setFlag w .df b k

theorem getLsbD_setFlag_ovf (w : Word) (b : Bool) (k : Nat) :
    (setFlag w .ovf b).getLsbD k = if k = 11 then b else w.getLsbD k := getLsbD_setFlag w .ovf b k

theorem getFlag_setFlag (w : Word) (f g : Flag) (b : Bool) :
    getFlag (setFlag w f b) g = if g = f then b else getFlag w g := by
  rw [getFlag, getLsbD_setFlag]
  cases f <;> cases g <;> simp [Flag.bit, getFlag]

theorem getLsbD_szp {w : Nat} (r : BitVec w) (fl : Word) (k : Nat) :
    (szp r fl).getLsbD k =
      if k = 2 then parity8 (r.setWidth 8) else if k = 7 then r.msb else if k = 6 then r == 0 else fl.getLsbD k := by
  simp only [szp, getLsbD_setFlag_zf, getLsbD_setFlag_sf, getLsbD_setFlag_pf]

theorem bit_toNat {w : Nat} (hw : 1 ≤ w) (c : Bool) : (bit w c).toNat = c.toNat := by
  have : 1 < 2 ^ w := Nat.one_lt_two_pow (by omega)
  cases c <;> simp [bit, Nat.mod_eq_of_lt, this]

theorem addFlags_result {w : Nat} (d s : BitVec w) (c : Bool) (fl : Word) :
    (addFlags d s c fl).1 = d + s + bit w c := rfl

theorem subFlags_result {w : Nat} (d s : BitVec w) (b : Bool) (fl : Word) :
    (subFlags d s b fl).1 = d - s - bit w b := rfl

theorem getLsbD_addFlags {w : Nat} (d s : BitVec w) (c : Bool) (fl : Word) (k : Nat) :
    (addFlags d s c fl).2.getLsbD k =
      let r := (addFlags d s c fl).1
      if k = 2 then parity8 (r.setWidth 8) else if k = 7 then r.msb else if k = 6 then r == 0
      else if k = 4 then (r ^^^ s ^^^ d).getLsbD 4 else if k = 11 then ((r ^^^ s) &&& (r ^^^ d)).msb
      else if k = 0 then decide (2 ^ w ≤ d.toNat + s.toNat + c.toNat) else fl.getLsbD k := by
  simp only [addFlags, getLsbD_szp, getLsbD_setFlag_cf, getLsbD_setFlag_ovf, getLsbD_setFlag_af]

theorem getLsbD_subFlags {w : Nat} (d s : BitVec w) (b : Bool) (fl : Word) (k : Nat) :
    (subFlags d s b fl).2.getLsbD k =
      let r := (subFlags d s b fl).1
      if k = 2 then parity8 (r.setWidth 8) else if k = 7 then r.msb else if k = 6 then r == 0
      else if k = 4 then (r ^^^ s ^^^ d).getLsbD 4 else if k = 11 then ((s ^^^ d) &&& (r ^^^ d)).msb
      else if k = 0 then decide (d.toNat < s.toNat + b.toNat) else fl.getLsbD k := by
  simp only [subFlags, getLsbD_szp, getLsbD_setFlag_cf, getLsbD_setFlag_ovf, getLsbD_setFlag_af]

theorem getLsbD_logicFlags {w : Nat} (r : BitVec w) (fl : Word) (k : Nat) :
    (logicFlags r fl).getLsbD k =
      if k = 2 then parity8 (r.setWidth 8) else if k = 7 then r.msb else if k = 6 then r == 0
      else if k = 4 ∨ k = 11 ∨ k = 0 then false else fl.getLsbD k := by
  simp only [logicFlags, getLsbD_szp, getLsbD_setFlag_cf, getLsbD_setFlag_ovf, getLsbD_setFlag_af]
  by_cases h4 : k = 4
  · simp [h4]
  by_cases h11 : k = 11
  · simp [h11]
  simp [h4, h11]

theorem getLsbD_flagsAfter {w : Nat} (op : ShiftOp) (n : Nat) (v0 v : BitVec w) (cf : Bool) (draw : Flag → Bool)
    (fl : Word) (k : Nat) :
    (op.flagsAfter n v0 v cf draw fl).getLsbD k =
      if k = 11 then (if n = 1 then op.overflow1 v0 v cf else draw .ovf)
      else if op.isShift = true ∧ k = 4 then draw .af
      else if op.isShift = true ∧ k = 2 then parity8 (v.setWidth 8)
      else if op.isShift = true ∧ k = 7 then v.msb
      else if op.isShift = true ∧ k = 6 then v == 0
      else if k = 0 then cf else fl.getLsbD k := by
  by_cases h : op.isShift = true
  · simp [ShiftOp.flagsAfter, h, getLsbD_setFlag_cf, getLsbD_setFlag_af, getLsbD_setFlag_ovf, getLsbD_szp]
  · simp [ShiftOp.flagsAfter, h, getLsbD_setFlag_cf, getLsbD_setFlag_ovf]

/-- A fold of flag writes keeps every bit that is not one of theirs. -/
theorem getLsbD_foldl_setFlag (fs : List Flag) (g : Flag → Bool) (fl : Word) (k : Nat)
    (h : ∀ f ∈ fs, f.bit ≠ k) :
    (fs.foldl (fun fl f => setFlag fl f (g f)) fl).getLsbD k = fl.getLsbD k := by
  induction fs generalizing fl with
  | nil => rfl
  | cons f fs ih =>
    rw [List.foldl_cons, ih _ fun g hg => h g (List.mem_cons_of_mem _ hg), getLsbD_setFlag]
    simp [Ne.symm (h f List.mem_cons_self)]

end Sys2Proof.Machine
end

