-- ==== Sys2Proof/Laws/Decode.lean ====
section
/-! SUPPORT. The pieces of the decoder read back what the pieces of the encoder wrote. -/

namespace Sys2Proof.Laws

@[simp] theorem modField_modRM (md : BitVec 2) (g rm : BitVec 3) : modField (modRM md g rm) = md := by
  revert md g rm; decide +kernel

@[simp] theorem regField_modRM (md : BitVec 2) (g rm : BitVec 3) : regField (modRM md g rm) = g := by
  revert md g rm; decide +kernel

@[simp] theorem rmField_modRM (md : BitVec 2) (g rm : BitVec 3) : rmField (modRM md g rm) = rm := by
  revert md g rm; decide +kernel

/-- A ModRM byte is made of its fields. -/
theorem modRM_fields (m : Byte) : modRM (modField m) (regField m) (rmField m) = m := by
  revert m; decide +kernel

@[simp] theorem Reg8.ofIdx_idx (r : Reg8) : Reg8.ofIdx r.idx = r := by cases r <;> rfl

@[simp] theorem Reg16.ofIdx_idx (r : Reg16) : Reg16.ofIdx r.idx = r := by cases r <;> rfl

@[simp] theorem SegReg.ofIdx_idx (r : SegReg) : SegReg.ofIdx r.idx = r := by cases r <;> rfl

@[simp] theorem Base.ofIdx_idx (b : Base) : Base.ofIdx b.idx = b := by cases b <;> rfl

@[simp] theorem Reg8.idx_ofIdx (i : BitVec 3) : (Reg8.ofIdx i).idx = i := by revert i; decide

@[simp] theorem Reg16.idx_ofIdx (i : BitVec 3) : (Reg16.ofIdx i).idx = i := by revert i; decide

@[simp] theorem Base.idx_ofIdx (i : BitVec 3) : (Base.ofIdx i).idx = i := by revert i; decide

@[simp] theorem mkWord_bytes (v : Word) : mkWord (hiByte v) (loByte v) = v := by
  apply BitVec.eq_of_getLsbD_eq
  intro i h
  simp only [mkWord, hiByte, loByte, BitVec.getLsbD_append, BitVec.getLsbD_extractLsb']
  by_cases h8 : i < 8
  · simp [h8]
  · have : 8 + (i - 8) = i := by omega
    have : i - 8 < 8 := by omega
    simp [*]

@[simp] theorem loByte_mkWord (hi lo : Byte) : loByte (mkWord hi lo) = lo := by
  apply BitVec.eq_of_getLsbD_eq
  intro i h
  simp only [mkWord, loByte, BitVec.getLsbD_append, BitVec.getLsbD_extractLsb']
  simp [h]

@[simp] theorem hiByte_mkWord (hi lo : Byte) : hiByte (mkWord hi lo) = hi := by
  apply BitVec.eq_of_getLsbD_eq
  intro i h
  simp only [mkWord, hiByte, BitVec.getLsbD_append, BitVec.getLsbD_extractLsb']
  simp [h]

@[simp] theorem take8_cons (k : Byte → List Byte → Decoded) (v : Byte) (rest : List Byte) :
    take8 k (v :: rest) = k v rest := rfl

@[simp] theorem take16_cons (k : Word → List Byte → Decoded) (lo hi : Byte) (rest : List Byte) :
    take16 k (lo :: hi :: rest) = k (mkWord hi lo) rest := rfl

@[simp] theorem take16_le16 (k : Word → List Byte → Decoded) (v : Word) (rest : List Byte) :
    take16 k (le16 v ++ rest) = k v rest := by simp [le16]

/-- The bytes of a memory operand are a ModRM byte and displacement bytes from which `takeRM` reads the operand. -/
theorem Mem.enc_spec (m : Mem) (g : BitVec 3) (h : m.wf = true) :
    ∃ (b : Byte) (ds : List Byte), m.enc g = b :: ds ∧ regField b = g ∧ modField b ≠ 3 ∧
      ∀ (k : RM → List Byte → Decoded) (rest : List Byte), takeRM b k (ds ++ rest) = k (.mem m) rest := by
  cases m with
  | direct d => exact ⟨_, _, rfl, by simp, by simp, fun k rest => by simp [takeRM, le16, Base.ofIdx]⟩
  | base b =>
    have hb : b ≠ .bp := by simpa [Mem.wf] using h
    exact ⟨_, _, rfl, by simp, by simp, fun k rest => by simp [takeRM, hb]⟩
  | disp8 b d => exact ⟨_, _, rfl, by simp, by simp, fun k rest => by simp [takeRM]⟩
  | disp16 b d => exact ⟨_, _, rfl, by simp, by simp, fun k rest => by simp [takeRM, le16]⟩

theorem takeRM_reg (g i : BitVec 3) (k : RM → List Byte → Decoded) (rest : List Byte) :
    takeRM (modRM 3 g i) k rest = k (.reg i) rest := by simp [takeRM]

/-- The bytes of an 8-bit operand, as `Mem.enc_spec`. -/
theorem RM8.enc_spec (e : RM8) (g : BitVec 3) (h : e.wf = true) :
    ∃ (b : Byte) (ds : List Byte) (r : RM), e.enc g = b :: ds ∧ regField b = g ∧ r.to8 = e ∧
      ∀ (k : RM → List Byte → Decoded) (rest : List Byte), takeRM b k (ds ++ rest) = k r rest := by
  cases e with
  | reg r => exact ⟨_, _, .reg r.idx, rfl, by simp, by simp [RM.to8], takeRM_reg g r.idx⟩
  | mem m =>
    obtain ⟨b, ds, h1, h2, -, h4⟩ := Mem.enc_spec m g h
    exact ⟨b, ds, .mem m, h1, h2, rfl, h4⟩

/-- The bytes of a 16-bit operand, as `Mem.enc_spec`. -/
theorem RM16.enc_spec (e : RM16) (g : BitVec 3) (h : e.wf = true) :
    ∃ (b : Byte) (ds : List Byte) (r : RM), e.enc g = b :: ds ∧ regField b = g ∧ r.to16 = e ∧
      ∀ (k : RM → List Byte → Decoded) (rest : List Byte), takeRM b k (ds ++ rest) = k r rest := by
  cases e with
  | reg r => exact ⟨_, _, .reg r.idx, rfl, by simp, by simp [RM.to16], takeRM_reg g r.idx⟩
  | mem m =>
    obtain ⟨b, ds, h1, h2, -, h4⟩ := Mem.enc_spec m g h
    exact ⟨b, ds, .mem m, h1, h2, rfl, h4⟩

/-! Enough bytes hold an instruction. -/

theorem take8_total {k : Byte → List Byte → Decoded} {n : Nat} {bs : List Byte} (h : n + 1 ≤ bs.length)
    (hk : ∀ v rest, n ≤ rest.length → ∃ x, k v rest = .ok x) : ∃ x, take8 k bs = .ok x := by
  match bs, h with
  | v :: rest, h => exact hk v rest (by simpa using h)

theorem take16_total {k : Word → List Byte → Decoded} {n : Nat} {bs : List Byte} (h : n + 2 ≤ bs.length)
    (hk : ∀ v rest, n ≤ rest.length → ∃ x, k v rest = .ok x) : ∃ x, take16 k bs = .ok x := by
  match bs, h with
  | lo :: hi :: rest, h => exact hk (mkWord hi lo) rest (by simpa using h)
  | [_], h => simp at h

theorem takeRM_total {m : Byte} {k : RM → List Byte → Decoded} {n : Nat} {bs : List Byte} (h : n + 2 ≤ bs.length)
    (hk : ∀ e rest, n ≤ rest.length → ∃ x, k e rest = .ok x) : ∃ x, takeRM m k bs = .ok x := by
  unfold takeRM
  dsimp only
  split
  · split
    · exact take16_total h fun v rest hr => hk _ rest hr
    · exact hk _ bs (by omega)
  · exact take8_total (n := n) (by omega) fun v rest hr => hk _ rest hr
  · exact take16_total h fun v rest hr => hk _ rest hr
  · exact hk _ bs (by omega)

theorem Tail.take_total (t : Tail) {bs : List Byte} (h : 2 ≤ bs.length) : ∃ x, t.take bs = .ok x := by
  cases t with
  | done i => exact ⟨_, rfl⟩
  | imm8 k => exact take8_total (bs := bs) (n := 0) (by omega) fun v rest _ => ⟨(k v, rest), rfl⟩
  | imm16 k => exact take16_total (bs := bs) (n := 0) (by omega) fun v rest _ => ⟨(k v, rest), rfl⟩

theorem Form.take_total (op : Byte) (f : Form) {bs : List Byte} (h : 5 ≤ bs.length) : ∃ x, f.take op bs = .ok x := by
  cases f with
  | plain i => exact ⟨_, rfl⟩
  | imm8 k => exact take8_total (bs := bs) (n := 0) (by omega) fun v rest _ => ⟨(k v, rest), rfl⟩
  | imm16 k => exact take16_total (bs := bs) (n := 0) (by omega) fun v rest _ => ⟨(k v, rest), rfl⟩
  | ptr k => exact take16_total (bs := bs) (n := 2) (by omega) fun v rest hr => take16_total (n := 0) hr fun w r _ =>
    ⟨(k v w, r), rfl⟩
  | undefined => exact ⟨_, rfl⟩
  | modrm k =>
    refine take8_total (n := 4) h fun m rest hr => ?_
    split
    · exact ⟨_, rfl⟩
    · refine takeRM_total (n := 2) (by omega) fun e rest' hr' => ?_
      split
      · exact Tail.take_total _ hr'
      · exact ⟨_, rfl⟩

/-- Six bytes hold an instruction. -/
theorem decode_total {bs : List Byte} (h : 6 ≤ bs.length) : ∃ i rest, decode bs = .ok (i, rest) := by
  match bs, h with
  | op :: rest, h =>
    obtain ⟨x, hx⟩ := Form.take_total op (opForm op) (bs := rest) (by simpa using h)
    exact ⟨x.1, x.2, hx⟩

end Sys2Proof.Laws
end

