-- ==== Sys2Proof/Laws/State.lean ====
section
/-! SUPPORT. One lemma per field of `State` and named update: the field after the update. -/

namespace Sys2Proof.Machine

variable (s : State)

/-! `setReg16` -/

@[simp] theorem State.setReg16_regs (i : Reg16) (v : Word) : (s.setReg16 i v).regs = s.regs.set i v := rfl
@[simp] theorem State.setReg16_segs (i : Reg16) (v : Word) : (s.setReg16 i v).segs = s.segs := rfl
@[simp] theorem State.setReg16_ip (i : Reg16) (v : Word) : (s.setReg16 i v).ip = s.ip := rfl
@[simp] theorem State.setReg16_flags (i : Reg16) (v : Word) : (s.setReg16 i v).flags = s.flags := rfl
@[simp] theorem State.setReg16_nmiPending (i : Reg16) (v : Word) : (s.setReg16 i v).nmiPending = s.nmiPending := rfl
@[simp] theorem State.setReg16_intrPending (i : Reg16) (v : Word) : (s.setReg16 i v).intrPending = s.intrPending := rfl
@[simp] theorem State.setReg16_intrVector (i : Reg16) (v : Word) : (s.setReg16 i v).intrVector = s.intrVector := rfl
@[simp] theorem State.setReg16_intDelay (i : Reg16) (v : Word) : (s.setReg16 i v).intDelay = s.intDelay := rfl
@[simp] theorem State.setReg16_halted (i : Reg16) (v : Word) : (s.setReg16 i v).halted = s.halted := rfl
@[simp] theorem State.setReg16_trapPending (i : Reg16) (v : Word) : (s.setReg16 i v).trapPending = s.trapPending := rfl
@[simp] theorem State.setReg16_status (i : Reg16) (v : Word) : (s.setReg16 i v).status = s.status := rfl
@[simp] theorem State.setReg16_mem (i : Reg16) (v : Word) : (s.setReg16 i v).mem = s.mem := rfl
@[simp] theorem State.setReg16_pit (i : Reg16) (v : Word) : (s.setReg16 i v).pit = s.pit := rfl
@[simp] theorem State.setReg16_registry (i : Reg16) (v : Word) : (s.setReg16 i v).registry = s.registry := rfl
@[simp] theorem State.setReg16_params (i : Reg16) (v : Word) : (s.setReg16 i v).params = s.params := rfl
@[simp] theorem State.setReg16_tr (i : Reg16) (v : Word) : (s.setReg16 i v).tr = s.tr := rfl
@[simp] theorem State.setReg16_sched (i : Reg16) (v : Word) : (s.setReg16 i v).sched = s.sched := rfl
@[simp] theorem State.setReg16_draws (i : Reg16) (v : Word) : (s.setReg16 i v).draws = s.draws := rfl
@[simp] theorem State.setReg16_mcbResult (i : Reg16) (v : Word) : (s.setReg16 i v).mcbResult = s.mcbResult := rfl

/-! `setReg8` -/

@[simp] theorem State.setReg8_regs (i : Reg8) (v : Byte) : (s.setReg8 i v).regs = s.regs.set8 i v := rfl
@[simp] theorem State.setReg8_segs (i : Reg8) (v : Byte) : (s.setReg8 i v).segs = s.segs := rfl
@[simp] theorem State.setReg8_ip (i : Reg8) (v : Byte) : (s.setReg8 i v).ip = s.ip := rfl
@[simp] theorem State.setReg8_flags (i : Reg8) (v : Byte) : (s.setReg8 i v).flags = s.flags := rfl
@[simp] theorem State.setReg8_nmiPending (i : Reg8) (v : Byte) : (s.setReg8 i v).nmiPending = s.nmiPending := rfl
@[simp] theorem State.setReg8_intrPending (i : Reg8) (v : Byte) : (s.setReg8 i v).intrPending = s.intrPending := rfl
@[simp] theorem State.setReg8_intrVector (i : Reg8) (v : Byte) : (s.setReg8 i v).intrVector = s.intrVector := rfl
@[simp] theorem State.setReg8_intDelay (i : Reg8) (v : Byte) : (s.setReg8 i v).intDelay = s.intDelay := rfl
@[simp] theorem State.setReg8_halted (i : Reg8) (v : Byte) : (s.setReg8 i v).halted = s.halted := rfl
@[simp] theorem State.setReg8_trapPending (i : Reg8) (v : Byte) : (s.setReg8 i v).trapPending = s.trapPending := rfl
@[simp] theorem State.setReg8_status (i : Reg8) (v : Byte) : (s.setReg8 i v).status = s.status := rfl
@[simp] theorem State.setReg8_mem (i : Reg8) (v : Byte) : (s.setReg8 i v).mem = s.mem := rfl
@[simp] theorem State.setReg8_pit (i : Reg8) (v : Byte) : (s.setReg8 i v).pit = s.pit := rfl
@[simp] theorem State.setReg8_registry (i : Reg8) (v : Byte) : (s.setReg8 i v).registry = s.registry := rfl
@[simp] theorem State.setReg8_params (i : Reg8) (v : Byte) : (s.setReg8 i v).params = s.params := rfl
@[simp] theorem State.setReg8_tr (i : Reg8) (v : Byte) : (s.setReg8 i v).tr = s.tr := rfl
@[simp] theorem State.setReg8_sched (i : Reg8) (v : Byte) : (s.setReg8 i v).sched = s.sched := rfl
@[simp] theorem State.setReg8_draws (i : Reg8) (v : Byte) : (s.setReg8 i v).draws = s.draws := rfl
@[simp] theorem State.setReg8_mcbResult (i : Reg8) (v : Byte) : (s.setReg8 i v).mcbResult = s.mcbResult := rfl

/-! `setSreg` -/

@[simp] theorem State.setSreg_regs (i : SegReg) (v : Word) : (s.setSreg i v).regs = s.regs := rfl
@[simp] theorem State.setSreg_segs (i : SegReg) (v : Word) : (s.setSreg i v).segs = s.segs.set i v := rfl
@[simp] theorem State.setSreg_ip (i : SegReg) (v : Word) : (s.setSreg i v).ip = s.ip := rfl
@[simp] theorem State.setSreg_flags (i : SegReg) (v : Word) : (s.setSreg i v).flags = s.flags := rfl
@[simp] theorem State.setSreg_nmiPending (i : SegReg) (v : Word) : (s.setSreg i v).nmiPending = s.nmiPending := rfl
@[simp] theorem State.setSreg_intrPending (i : SegReg) (v : Word) : (s.setSreg i v).intrPending = s.intrPending := rfl
@[simp] theorem State.setSreg_intrVector (i : SegReg) (v : Word) : (s.setSreg i v).intrVector = s.intrVector := rfl
@[simp] theorem State.setSreg_intDelay (i : SegReg) (v : Word) : (s.setSreg i v).intDelay = s.intDelay := rfl
@[simp] theorem State.setSreg_halted (i : SegReg) (v : Word) : (s.setSreg i v).halted = s.halted := rfl
@[simp] theorem State.setSreg_trapPending (i : SegReg) (v : Word) : (s.setSreg i v).trapPending = s.trapPending := rfl
@[simp] theorem State.setSreg_status (i : SegReg) (v : Word) : (s.setSreg i v).status = s.status := rfl
@[simp] theorem State.setSreg_mem (i : SegReg) (v : Word) : (s.setSreg i v).mem = s.mem := rfl
@[simp] theorem State.setSreg_pit (i : SegReg) (v : Word) : (s.setSreg i v).pit = s.pit := rfl
@[simp] theorem State.setSreg_registry (i : SegReg) (v : Word) : (s.setSreg i v).registry = s.registry := rfl
@[simp] theorem State.setSreg_params (i : SegReg) (v : Word) : (s.setSreg i v).params = s.params := rfl
@[simp] theorem State.setSreg_tr (i : SegReg) (v : Word) : (s.setSreg i v).tr = s.tr := rfl
@[simp] theorem State.setSreg_sched (i : SegReg) (v : Word) : (s.setSreg i v).sched = s.sched := rfl
@[simp] theorem State.setSreg_draws (i : SegReg) (v : Word) : (s.setSreg i v).draws = s.draws := rfl
@[simp] theorem State.setSreg_mcbResult (i : SegReg) (v : Word) : (s.setSreg i v).mcbResult = s.mcbResult := rfl

/-! `setFlag` -/

@[simp] theorem State.setFlag_regs (f : Flag) (b : Bool) : (s.setFlag f b).regs = s.regs := rfl
@[simp] theorem State.setFlag_segs (f : Flag) (b : Bool) : (s.setFlag f b).segs = s.segs := rfl
@[simp] theorem State.setFlag_ip (f : Flag) (b : Bool) : (s.setFlag f b).ip = s.ip := rfl
@[simp] theorem State.setFlag_flags (f : Flag) (b : Bool) : (s.setFlag f b).flags = Machine.setFlag s.flags f b := rfl
@[simp] theorem State.setFlag_nmiPending (f : Flag) (b : Bool) : (s.setFlag f b).nmiPending = s.nmiPending := rfl
@[simp] theorem State.setFlag_intrPending (f : Flag) (b : Bool) : (s.setFlag f b).intrPending = s.intrPending := rfl
@[simp] theorem State.setFlag_intrVector (f : Flag) (b : Bool) : (s.setFlag f b).intrVector = s.intrVector := rfl
@[simp] theorem State.setFlag_intDelay (f : Flag) (b : Bool) : (s.setFlag f b).intDelay = s.intDelay := rfl
@[simp] theorem State.setFlag_halted (f : Flag) (b : Bool) : (s.setFlag f b).halted = s.halted := rfl
@[simp] theorem State.setFlag_trapPending (f : Flag) (b : Bool) : (s.setFlag f b).trapPending = s.trapPending := rfl
@[simp] theorem State.setFlag_status (f : Flag) (b : Bool) : (s.setFlag f b).status = s.status := rfl
@[simp] theorem State.setFlag_mem (f : Flag) (b : Bool) : (s.setFlag f b).mem = s.mem := rfl
@[simp] theorem State.setFlag_pit (f : Flag) (b : Bool) : (s.setFlag f b).pit = s.pit := rfl
@[simp] theorem State.setFlag_registry (f : Flag) (b : Bool) : (s.setFlag f b).registry = s.registry := rfl
@[simp] theorem State.setFlag_params (f : Flag) (b : Bool) : (s.setFlag f b).params = s.params := rfl
@[simp] theorem State.setFlag_tr (f : Flag) (b : Bool) : (s.setFlag f b).tr = s.tr := rfl
@[simp] theorem State.setFlag_sched (f : Flag) (b : Bool) : (s.setFlag f b).sched = s.sched := rfl
@[simp] theorem State.setFlag_draws (f : Flag) (b : Bool) : (s.setFlag f b).draws = s.draws := rfl
@[simp] theorem State.setFlag_mcbResult (f : Flag) (b : Bool) : (s.setFlag f b).mcbResult = s.mcbResult := rfl

/-! `memWrite8` -/

@[simp] theorem State.memWrite8_regs (pa : Nat) (v : Byte) : (s.memWrite8 pa v).regs = s.regs := rfl
@[simp] theorem State.memWrite8_segs (pa : Nat) (v : Byte) : (s.memWrite8 pa v).segs = s.segs := rfl
@[simp] theorem State.memWrite8_ip (pa : Nat) (v : Byte) : (s.memWrite8 pa v).ip = s.ip := rfl
@[simp] theorem State.memWrite8_flags (pa : Nat) (v : Byte) : (s.memWrite8 pa v).flags = s.flags := rfl
@[simp] theorem State.memWrite8_nmiPending (pa : Nat) (v : Byte) : (s.memWrite8 pa v).nmiPending = s.nmiPending := rfl
@[simp] theorem State.memWrite8_intrPending (pa : Nat) (v : Byte) :
    (s.memWrite8 pa v).intrPending = s.intrPending := rfl
@[simp] theorem State.memWrite8_intrVector (pa : Nat) (v : Byte) : (s.memWrite8 pa v).intrVector = s.intrVector := rfl
@[simp] theorem State.memWrite8_intDelay (pa : Nat) (v : Byte) : (s.memWrite8 pa v).intDelay = s.intDelay := rfl
@[simp] theorem State.memWrite8_halted (pa : Nat) (v : Byte) : (s.memWrite8 pa v).halted = s.halted := rfl
@[simp] theorem State.memWrite8_trapPending (pa : Nat) (v : Byte) :
    (s.memWrite8 pa v).trapPending = s.trapPending := rfl
@[simp] theorem State.memWrite8_status (pa : Nat) (v : Byte) : (s.memWrite8 pa v).status = s.status := rfl
@[simp] theorem State.memWrite8_mem (pa : Nat) (v : Byte) : (s.memWrite8 pa v).mem = s.mem.write pa v := rfl
@[simp] theorem State.memWrite8_pit (pa : Nat) (v : Byte) : (s.memWrite8 pa v).pit = s.pit := rfl
@[simp] theorem State.memWrite8_registry (pa : Nat) (v : Byte) : (s.memWrite8 pa v).registry = s.registry := rfl
@[simp] theorem State.memWrite8_params (pa : Nat) (v : Byte) : (s.memWrite8 pa v).params = s.params := rfl
@[simp] theorem State.memWrite8_tr (pa : Nat) (v : Byte) : (s.memWrite8 pa v).tr = s.tr := rfl
@[simp] theorem State.memWrite8_sched (pa : Nat) (v : Byte) : (s.memWrite8 pa v).sched = s.sched := rfl
@[simp] theorem State.memWrite8_draws (pa : Nat) (v : Byte) : (s.memWrite8 pa v).draws = s.draws := rfl
@[simp] theorem State.memWrite8_mcbResult (pa : Nat) (v : Byte) : (s.memWrite8 pa v).mcbResult = s.mcbResult := rfl

/-! `memWrite16` -/

@[simp] theorem State.memWrite16_regs (pa : Nat) (v : Word) : (s.memWrite16 pa v).regs = s.regs := rfl
@[simp] theorem State.memWrite16_segs (pa : Nat) (v : Word) : (s.memWrite16 pa v).segs = s.segs := rfl
@[simp] theorem State.memWrite16_ip (pa : Nat) (v : Word) : (s.memWrite16 pa v).ip = s.ip := rfl
@[simp] theorem State.memWrite16_flags (pa : Nat) (v : Word) : (s.memWrite16 pa v).flags = s.flags := rfl
@[simp] theorem State.memWrite16_nmiPending (pa : Nat) (v : Word) : (s.memWrite16 pa v).nmiPending = s.nmiPending := rfl
@[simp] theorem State.memWrite16_intrPending (pa : Nat) (v : Word) :
    (s.memWrite16 pa v).intrPending = s.intrPending := rfl
@[simp] theorem State.memWrite16_intrVector (pa : Nat) (v : Word) : (s.memWrite16 pa v).intrVector = s.intrVector := rfl
@[simp] theorem State.memWrite16_intDelay (pa : Nat) (v : Word) : (s.memWrite16 pa v).intDelay = s.intDelay := rfl
@[simp] theorem State.memWrite16_halted (pa : Nat) (v : Word) : (s.memWrite16 pa v).halted = s.halted := rfl
@[simp] theorem State.memWrite16_trapPending (pa : Nat) (v : Word) :
    (s.memWrite16 pa v).trapPending = s.trapPending := rfl
@[simp] theorem State.memWrite16_status (pa : Nat) (v : Word) : (s.memWrite16 pa v).status = s.status := rfl
@[simp] theorem State.memWrite16_mem (pa : Nat) (v : Word) :
    (s.memWrite16 pa v).mem = (s.mem.write pa (loByte v)).write (nextPhys pa) (hiByte v) := rfl
@[simp] theorem State.memWrite16_pit (pa : Nat) (v : Word) : (s.memWrite16 pa v).pit = s.pit := rfl
@[simp] theorem State.memWrite16_registry (pa : Nat) (v : Word) : (s.memWrite16 pa v).registry = s.registry := rfl
@[simp] theorem State.memWrite16_params (pa : Nat) (v : Word) : (s.memWrite16 pa v).params = s.params := rfl
@[simp] theorem State.memWrite16_tr (pa : Nat) (v : Word) : (s.memWrite16 pa v).tr = s.tr := rfl
@[simp] theorem State.memWrite16_sched (pa : Nat) (v : Word) : (s.memWrite16 pa v).sched = s.sched := rfl
@[simp] theorem State.memWrite16_draws (pa : Nat) (v : Word) : (s.memWrite16 pa v).draws = s.draws := rfl
@[simp] theorem State.memWrite16_mcbResult (pa : Nat) (v : Word) : (s.memWrite16 pa v).mcbResult = s.mcbResult := rfl

/-! `segWrite8` -/

@[simp] theorem State.segWrite8_regs (seg off : Word) (v : Byte) : (s.segWrite8 seg off v).regs = s.regs := rfl
@[simp] theorem State.segWrite8_segs (seg off : Word) (v : Byte) : (s.segWrite8 seg off v).segs = s.segs := rfl
@[simp] theorem State.segWrite8_ip (seg off : Word) (v : Byte) : (s.segWrite8 seg off v).ip = s.ip := rfl
@[simp] theorem State.segWrite8_flags (seg off : Word) (v : Byte) : (s.segWrite8 seg off v).flags = s.flags := rfl
@[simp] theorem State.segWrite8_nmiPending (seg off : Word) (v : Byte) :
    (s.segWrite8 seg off v).nmiPending = s.nmiPending := rfl
@[simp] theorem State.segWrite8_intrPending (seg off : Word) (v : Byte) :
    (s.segWrite8 seg off v).intrPending = s.intrPending := rfl
@[simp] theorem State.segWrite8_intrVector (seg off : Word) (v : Byte) :
    (s.segWrite8 seg off v).intrVector = s.intrVector := rfl
@[simp] theorem State.segWrite8_intDelay (seg off : Word) (v : Byte) :
    (s.segWrite8 seg off v).intDelay = s.intDelay := rfl
@[simp] theorem State.segWrite8_halted (seg off : Word) (v : Byte) : (s.segWrite8 seg off v).halted = s.halted := rfl
@[simp] theorem State.segWrite8_trapPending (seg off : Word) (v : Byte) :
    (s.segWrite8 seg off v).trapPending = s.trapPending := rfl
@[simp] theorem State.segWrite8_status (seg off : Word) (v : Byte) : (s.segWrite8 seg off v).status = s.status := rfl
@[simp] theorem State.segWrite8_mem (seg off : Word) (v : Byte) :
    (s.segWrite8 seg off v).mem = s.mem.write (phys seg off) v := rfl
@[simp] theorem State.segWrite8_pit (seg off : Word) (v : Byte) : (s.segWrite8 seg off v).pit = s.pit := rfl
@[simp] theorem State.segWrite8_registry (seg off : Word) (v : Byte) :
    (s.segWrite8 seg off v).registry = s.registry := rfl
@[simp] theorem State.segWrite8_params (seg off : Word) (v : Byte) : (s.segWrite8 seg off v).params = s.params := rfl
@[simp] theorem State.segWrite8_tr (seg off : Word) (v : Byte) : (s.segWrite8 seg off v).tr = s.tr := rfl
@[simp] theorem State.segWrite8_sched (seg off : Word) (v : Byte) : (s.segWrite8 seg off v).sched = s.sched := rfl
@[simp] theorem State.segWrite8_draws (seg off : Word) (v : Byte) : (s.segWrite8 seg off v).draws = s.draws := rfl
@[simp] theorem State.segWrite8_mcbResult (seg off : Word) (v : Byte) :
    (s.segWrite8 seg off v).mcbResult = s.mcbResult := rfl

/-! `segWrite16` -/

@[simp] theorem State.segWrite16_regs (seg off v : Word) : (s.segWrite16 seg off v).regs = s.regs := rfl
@[simp] theorem State.segWrite16_segs (seg off v : Word) : (s.segWrite16 seg off v).segs = s.segs := rfl
@[simp] theorem State.segWrite16_ip (seg off v : Word) : (s.segWrite16 seg off v).ip = s.ip := rfl
@[simp] theorem State.segWrite16_flags (seg off v : Word) : (s.segWrite16 seg off v).flags = s.flags := rfl
@[simp] theorem State.segWrite16_nmiPending (seg off v : Word) :
    (s.segWrite16 seg off v).nmiPending = s.nmiPending := rfl
@[simp] theorem State.segWrite16_intrPending (seg off v : Word) :
    (s.segWrite16 seg off v).intrPending = s.intrPending := rfl
@[simp] theorem State.segWrite16_intrVector (seg off v : Word) :
    (s.segWrite16 seg off v).intrVector = s.intrVector := rfl
@[simp] theorem State.segWrite16_intDelay (seg off v : Word) : (s.segWrite16 seg off v).intDelay = s.intDelay := rfl
@[simp] theorem State.segWrite16_halted (seg off v : Word) : (s.segWrite16 seg off v).halted = s.halted := rfl
@[simp] theorem State.segWrite16_trapPending (seg off v : Word) :
    (s.segWrite16 seg off v).trapPending = s.trapPending := rfl
@[simp] theorem State.segWrite16_status (seg off v : Word) : (s.segWrite16 seg off v).status = s.status := rfl
@[simp] theorem State.segWrite16_mem (seg off v : Word) :
    (s.segWrite16 seg off v).mem = (s.mem.write (phys seg off) (loByte v)).write (nextPhys (phys seg off)) (hiByte v) := rfl
@[simp] theorem State.segWrite16_pit (seg off v : Word) : (s.segWrite16 seg off v).pit = s.pit := rfl
@[simp] theorem State.segWrite16_registry (seg off v : Word) : (s.segWrite16 seg off v).registry = s.registry := rfl
@[simp] theorem State.segWrite16_params (seg off v : Word) : (s.segWrite16 seg off v).params = s.params := rfl
@[simp] theorem State.segWrite16_tr (seg off v : Word) : (s.segWrite16 seg off v).tr = s.tr := rfl
@[simp] theorem State.segWrite16_sched (seg off v : Word) : (s.segWrite16 seg off v).sched = s.sched := rfl
@[simp] theorem State.segWrite16_draws (seg off v : Word) : (s.segWrite16 seg off v).draws = s.draws := rfl
@[simp] theorem State.segWrite16_mcbResult (seg off v : Word) : (s.segWrite16 seg off v).mcbResult = s.mcbResult := rfl

/-! `push16` -/

@[simp] theorem State.push16_regs (v : Word) : (s.push16 v).regs = { s.regs with sp := s.regs.sp - 2 } := rfl
@[simp] theorem State.push16_segs (v : Word) : (s.push16 v).segs = s.segs := rfl
@[simp] theorem State.push16_ip (v : Word) : (s.push16 v).ip = s.ip := rfl
@[simp] theorem State.push16_flags (v : Word) : (s.push16 v).flags = s.flags := rfl
@[simp] theorem State.push16_nmiPending (v : Word) : (s.push16 v).nmiPending = s.nmiPending := rfl
@[simp] theorem State.push16_intrPending (v : Word) : (s.push16 v).intrPending = s.intrPending := rfl
@[simp] theorem State.push16_intrVector (v : Word) : (s.push16 v).intrVector = s.intrVector := rfl
@[simp] theorem State.push16_intDelay (v : Word) : (s.push16 v).intDelay = s.intDelay := rfl
@[simp] theorem State.push16_halted (v : Word) : (s.push16 v).halted = s.halted := rfl
@[simp] theorem State.push16_trapPending (v : Word) : (s.push16 v).trapPending = s.trapPending := rfl
@[simp] theorem State.push16_status (v : Word) : (s.push16 v).status = s.status := rfl
@[simp] theorem State.push16_mem (v : Word) : (s.push16 v).mem = (s.segWrite16 s.segs.ss (s.regs.sp - 2) v).mem := rfl
@[simp] theorem State.push16_pit (v : Word) : (s.push16 v).pit = s.pit := rfl
@[simp] theorem State.push16_registry (v : Word) : (s.push16 v).registry = s.registry := rfl
@[simp] theorem State.push16_params (v : Word) : (s.push16 v).params = s.params := rfl
@[simp] theorem State.push16_tr (v : Word) : (s.push16 v).tr = s.tr := rfl
@[simp] theorem State.push16_sched (v : Word) : (s.push16 v).sched = s.sched := rfl
@[simp] theorem State.push16_draws (v : Word) : (s.push16 v).draws = s.draws := rfl
@[simp] theorem State.push16_mcbResult (v : Word) : (s.push16 v).mcbResult = s.mcbResult := rfl

/-! `drop16` -/

@[simp] theorem State.drop16_regs : (s.drop16).regs = { s.regs with sp := s.regs.sp + 2 } := rfl
@[simp] theorem State.drop16_segs : (s.drop16).segs = s.segs := rfl
@[simp] theorem State.drop16_ip : (s.drop16).ip = s.ip := rfl
@[simp] theorem State.drop16_flags : (s.drop16).flags = s.flags := rfl
@[simp] theorem State.drop16_nmiPending : (s.drop16).nmiPending = s.nmiPending := rfl
@[simp] theorem State.drop16_intrPending : (s.drop16).intrPending = s.intrPending := rfl
@[simp] theorem State.drop16_intrVector : (s.drop16).intrVector = s.intrVector := rfl
@[simp] theorem State.drop16_intDelay : (s.drop16).intDelay = s.intDelay := rfl
@[simp] theorem State.drop16_halted : (s.drop16).halted = s.halted := rfl
@[simp] theorem State.drop16_trapPending : (s.drop16).trapPending = s.trapPending := rfl
@[simp] theorem State.drop16_status : (s.drop16).status = s.status := rfl
@[simp] theorem State.drop16_mem : (s.drop16).mem = s.mem := rfl
@[simp] theorem State.drop16_pit : (s.drop16).pit = s.pit := rfl
@[simp] theorem State.drop16_registry : (s.drop16).registry = s.registry := rfl
@[simp] theorem State.drop16_params : (s.drop16).params = s.params := rfl
@[simp] theorem State.drop16_tr : (s.drop16).tr = s.tr := rfl
@[simp] theorem State.drop16_sched : (s.drop16).sched = s.sched := rfl
@[simp] theorem State.drop16_draws : (s.drop16).draws = s.draws := rfl
@[simp] theorem State.drop16_mcbResult : (s.drop16).mcbResult = s.mcbResult := rfl

/-! `drawFlags` -/

@[simp] theorem State.drawFlags_regs (fs : List Flag) : (s.drawFlags fs).regs = s.regs := rfl
@[simp] theorem State.drawFlags_segs (fs : List Flag) : (s.drawFlags fs).segs = s.segs := rfl
@[simp] theorem State.drawFlags_ip (fs : List Flag) : (s.drawFlags fs).ip = s.ip := rfl
@[simp] theorem State.drawFlags_flags (fs : List Flag) :
    (s.drawFlags fs).flags = fs.foldl (fun fl f => Machine.setFlag fl f (drawnFlag s.draws f)) s.flags := rfl
@[simp] theorem State.drawFlags_nmiPending (fs : List Flag) : (s.drawFlags fs).nmiPending = s.nmiPending := rfl
@[simp] theorem State.drawFlags_intrPending (fs : List Flag) : (s.drawFlags fs).intrPending = s.intrPending := rfl
@[simp] theorem State.drawFlags_intrVector (fs : List Flag) : (s.drawFlags fs).intrVector = s.intrVector := rfl
@[simp] theorem State.drawFlags_intDelay (fs : List Flag) : (s.drawFlags fs).intDelay = s.intDelay := rfl
@[simp] theorem State.drawFlags_halted (fs : List Flag) : (s.drawFlags fs).halted = s.halted := rfl
@[simp] theorem State.drawFlags_trapPending (fs : List Flag) : (s.drawFlags fs).trapPending = s.trapPending := rfl
@[simp] theorem State.drawFlags_status (fs : List Flag) : (s.drawFlags fs).status = s.status := rfl
@[simp] theorem State.drawFlags_mem (fs : List Flag) : (s.drawFlags fs).mem = s.mem := rfl
@[simp] theorem State.drawFlags_pit (fs : List Flag) : (s.drawFlags fs).pit = s.pit := rfl
@[simp] theorem State.drawFlags_registry (fs : List Flag) : (s.drawFlags fs).registry = s.registry := rfl
@[simp] theorem State.drawFlags_params (fs : List Flag) : (s.drawFlags fs).params = s.params := rfl
@[simp] theorem State.drawFlags_tr (fs : List Flag) : (s.drawFlags fs).tr = s.tr := rfl
@[simp] theorem State.drawFlags_sched (fs : List Flag) : (s.drawFlags fs).sched = s.sched := rfl
@[simp] theorem State.drawFlags_draws (fs : List Flag) : (s.drawFlags fs).draws = s.draws + 1 := rfl
@[simp] theorem State.drawFlags_mcbResult (fs : List Flag) : (s.drawFlags fs).mcbResult = s.mcbResult := rfl

/-! `writeOp8` -/

@[simp] theorem State.writeOp8_segs (v : Byte) (d : Operand8) : (s.writeOp8 v d).segs = s.segs := by cases d <;> rfl
@[simp] theorem State.writeOp8_ip (v : Byte) (d : Operand8) : (s.writeOp8 v d).ip = s.ip := by cases d <;> rfl
@[simp] theorem State.writeOp8_flags (v : Byte) (d : Operand8) : (s.writeOp8 v d).flags = s.flags := by cases d <;> rfl
@[simp] theorem State.writeOp8_nmiPending (v : Byte) (d : Operand8) :
    (s.writeOp8 v d).nmiPending = s.nmiPending := by cases d <;> rfl
@[simp] theorem State.writeOp8_intrPending (v : Byte) (d : Operand8) :
    (s.writeOp8 v d).intrPending = s.intrPending := by cases d <;> rfl
@[simp] theorem State.writeOp8_intrVector (v : Byte) (d : Operand8) :
    (s.writeOp8 v d).intrVector = s.intrVector := by cases d <;> rfl
@[simp] theorem State.writeOp8_intDelay (v : Byte) (d : Operand8) :
    (s.writeOp8 v d).intDelay = s.intDelay := by cases d <;> rfl
@[simp] theorem State.writeOp8_halted (v : Byte) (d : Operand8) :
    (s.writeOp8 v d).halted = s.halted := by cases d <;> rfl
@[simp] theorem State.writeOp8_trapPending (v : Byte) (d : Operand8) :
    (s.writeOp8 v d).trapPending = s.trapPending := by cases d <;> rfl
@[simp] theorem State.writeOp8_status (v : Byte) (d : Operand8) :
    (s.writeOp8 v d).status = s.status := by cases d <;> rfl
@[simp] theorem State.writeOp8_pit (v : Byte) (d : Operand8) : (s.writeOp8 v d).pit = s.pit := by cases d <;> rfl
@[simp] theorem State.writeOp8_registry (v : Byte) (d : Operand8) :
    (s.writeOp8 v d).registry = s.registry := by cases d <;> rfl
@[simp] theorem State.writeOp8_params (v : Byte) (d : Operand8) :
    (s.writeOp8 v d).params = s.params := by cases d <;> rfl
@[simp] theorem State.writeOp8_tr (v : Byte) (d : Operand8) : (s.writeOp8 v d).tr = s.tr := by cases d <;> rfl
@[simp] theorem State.writeOp8_sched (v : Byte) (d : Operand8) : (s.writeOp8 v d).sched = s.sched := by cases d <;> rfl
@[simp] theorem State.writeOp8_draws (v : Byte) (d : Operand8) : (s.writeOp8 v d).draws = s.draws := by cases d <;> rfl
@[simp] theorem State.writeOp8_mcbResult (v : Byte) (d : Operand8) :
    (s.writeOp8 v d).mcbResult = s.mcbResult := by cases d <;> rfl

/-! `writeOp16` -/

@[simp] theorem State.writeOp16_segs (v : Word) (d : Operand16) : (s.writeOp16 v d).segs = s.segs := by cases d <;> rfl
@[simp] theorem State.writeOp16_ip (v : Word) (d : Operand16) : (s.writeOp16 v d).ip = s.ip := by cases d <;> rfl
@[simp] theorem State.writeOp16_flags (v : Word) (d : Operand16) :
    (s.writeOp16 v d).flags = s.flags := by cases d <;> rfl
@[simp] theorem State.writeOp16_nmiPending (v : Word) (d : Operand16) :
    (s.writeOp16 v d).nmiPending = s.nmiPending := by cases d <;> rfl
@[simp] theorem State.writeOp16_intrPending (v : Word) (d : Operand16) :
    (s.writeOp16 v d).intrPending = s.intrPending := by cases d <;> rfl
@[simp] theorem State.writeOp16_intrVector (v : Word) (d : Operand16) :
    (s.writeOp16 v d).intrVector = s.intrVector := by cases d <;> rfl
@[simp] theorem State.writeOp16_intDelay (v : Word) (d : Operand16) :
    (s.writeOp16 v d).intDelay = s.intDelay := by cases d <;> rfl
@[simp] theorem State.writeOp16_halted (v : Word) (d : Operand16) :
    (s.writeOp16 v d).halted = s.halted := by cases d <;> rfl
@[simp] theorem State.writeOp16_trapPending (v : Word) (d : Operand16) :
    (s.writeOp16 v d).trapPending = s.trapPending := by cases d <;> rfl
@[simp] theorem State.writeOp16_status (v : Word) (d : Operand16) :
    (s.writeOp16 v d).status = s.status := by cases d <;> rfl
@[simp] theorem State.writeOp16_pit (v : Word) (d : Operand16) : (s.writeOp16 v d).pit = s.pit := by cases d <;> rfl
@[simp] theorem State.writeOp16_registry (v : Word) (d : Operand16) :
    (s.writeOp16 v d).registry = s.registry := by cases d <;> rfl
@[simp] theorem State.writeOp16_params (v : Word) (d : Operand16) :
    (s.writeOp16 v d).params = s.params := by cases d <;> rfl
@[simp] theorem State.writeOp16_tr (v : Word) (d : Operand16) : (s.writeOp16 v d).tr = s.tr := by cases d <;> rfl
@[simp] theorem State.writeOp16_sched (v : Word) (d : Operand16) :
    (s.writeOp16 v d).sched = s.sched := by cases d <;> rfl
@[simp] theorem State.writeOp16_draws (v : Word) (d : Operand16) :
    (s.writeOp16 v d).draws = s.draws := by cases d <;> rfl
@[simp] theorem State.writeOp16_mcbResult (v : Word) (d : Operand16) :
    (s.writeOp16 v d).mcbResult = s.mcbResult := by cases d <;> rfl

/-! The operations as record updates. -/

theorem State.push16_eq (v : Word) : s.push16 v =
    { s with regs := { s.regs with sp := s.regs.sp - 2 } }.segWrite16 s.segs.ss (s.regs.sp - 2) v := rfl

theorem State.drop16_eq : s.drop16 = { s with regs := { s.regs with sp := s.regs.sp + 2 } } := rfl

theorem State.writeOp8_eq (v : Byte) (d : Operand8) :
    s.writeOp8 v d = { s with regs := (s.writeOp8 v d).regs, mem := (s.writeOp8 v d).mem } := by cases d <;> rfl

theorem State.writeOp16_eq (v : Word) (d : Operand16) :
    s.writeOp16 v d = { s with regs := (s.writeOp16 v d).regs, mem := (s.writeOp16 v d).mem } := by cases d <;> rfl

/-- A written operand does not depend on FLAGS, the draw number or IP. -/
theorem State.writeOp8_flags_comm (v : Byte) (d : Operand8) (fl : Word) :
    { s with flags := fl }.writeOp8 v d = { s.writeOp8 v d with flags := fl } := by cases d <;> rfl

theorem State.writeOp16_flags_comm (v : Word) (d : Operand16) (fl : Word) :
    { s with flags := fl }.writeOp16 v d = { s.writeOp16 v d with flags := fl } := by cases d <;> rfl

end Sys2Proof.Machine
end

