-- ==== Sys2Proof/Laws/Memory.lean ====
section
/-! SUPPORT. Memory: reading after writing, the canonical form, and the bytes a word write touches. -/

namespace Sys2Proof.Machine

namespace Memory

theorem read_erase (m : Memory) (a b : Nat) : (m.erase a).read b = if b = a then unlisted else m.read b := by
  induction m with
  | nil => simp [erase, read]
  | cons c m ih =>
    obtain ⟨x, u⟩ := c
    simp only [erase] at ih
    by_cases hx : x = a
    · subst hx
      by_cases hb : b = x
      · simp_all [erase]
      · simp_all [erase, read, Ne.symm hb]
    · by_cases hb : x = b
      · subst hb; simp_all [erase, read]
      · simp_all [erase, read]

theorem read_insert (m : Memory) (a b : Nat) (v : Byte) (h : ∀ c ∈ m, c.1 ≠ a) :
    (insert a v m).read b = if b = a then v else m.read b := by
  induction m with
  | nil => by_cases hb : a = b <;> simp [insert, read, hb, eq_comm]
  | cons c m ih =>
    obtain ⟨x, u⟩ := c
    have hx : x ≠ a := h _ List.mem_cons_self
    have ih := ih fun c hc => h c (List.mem_cons_of_mem _ hc)
    simp only [insert]
    split
    · by_cases hb : a = b <;> simp [read, hb, eq_comm]
    · by_cases hb : x = b
      · simp [read, hb]; intro h2; omega
      · simp [read, hb, ih]

theorem erase_ne (m : Memory) (a : Nat) : ∀ c ∈ m.erase a, c.1 ≠ a := by
  intro c hc
  simpa [erase] using (List.mem_filter.mp hc).2

/-- Read after write. -/
theorem read_write (m : Memory) (a b : Nat) (v : Byte) : (m.write a v).read b = if b = a then v else m.read b := by
  unfold write
  split
  · next h => rw [read_erase, h]
  · rw [read_insert _ _ _ _ (erase_ne m a), read_erase]; split <;> rfl

theorem wf_erase {m : Memory} (h : m.wf) (a : Nat) : (m.erase a).wf :=
  ⟨h.1.filter _, fun c hc => h.2 c (List.mem_filter.mp hc).1⟩

theorem mem_insert (m : Memory) (a : Nat) (v : Byte) (c : Host.Cell) : c ∈ insert a v m ↔ c = (a, v) ∨ c ∈ m := by
  induction m with
  | nil => simp [insert]
  | cons d m ih =>
    simp only [insert]
    split
    · simp
    · simp only [List.mem_cons, ih]; tauto

theorem wf_insert {m : Memory} (h : m.wf) (a : Nat) (v : Byte) (ha : a < Config.memSize) (hv : v ≠ unlisted)
    (hn : ∀ c ∈ m, c.1 ≠ a) : (insert a v m).wf := by
  refine ⟨?_, fun c hc => ?_⟩
  · obtain ⟨hp, -⟩ := h
    induction m with
    | nil => simp [insert]
    | cons d m ih =>
      rw [List.pairwise_cons] at hp
      simp only [insert]
      split
      · next hlt =>
        rw [List.pairwise_cons, List.pairwise_cons]
        refine ⟨fun c hc => ?_, hp⟩
        rcases List.mem_cons.mp hc with rfl | hc
        · exact hlt
        · exact Nat.lt_trans hlt (hp.1 c hc)
      · next hge =>
        have hd := hn d List.mem_cons_self
        rw [List.pairwise_cons]
        refine ⟨fun c hc => ?_, ih (fun c hc => hn c (List.mem_cons_of_mem _ hc)) hp.2⟩
        rcases (mem_insert m a v c).mp hc with rfl | hc
        · have : d.1 < a := by omega
          exact this
        · exact hp.1 c hc
  · rcases (mem_insert m a v c).mp hc with rfl | hc
    · exact ⟨ha, hv⟩
    · exact h.2 c hc

/-- A write keeps the canonical form. -/
theorem wf_write {m : Memory} (h : m.wf) (a : Nat) (v : Byte) (ha : a < Config.memSize) : (m.write a v).wf := by
  unfold write
  split
  · exact wf_erase h a
  · next hv => exact wf_insert (wf_erase h a) a v ha hv (erase_ne m a)

theorem read_eq_unlisted {m : Memory} {a : Nat} (h : ∀ c ∈ m, c.1 ≠ a) : m.read a = unlisted := by
  induction m with
  | nil => rfl
  | cons c m ih =>
    rw [read, if_neg (h c List.mem_cons_self), ih fun d hd => h d (List.mem_cons_of_mem _ hd)]

/-- Two memories in canonical form that read alike are the same data. -/
theorem wf_ext {m n : Memory} (hm : m.wf) (hn : n.wf) (h : ∀ a, m.read a = n.read a) : m = n := by
  induction m generalizing n with
  | nil =>
    cases n with
    | nil => rfl
    | cons d n => exact absurd (by simpa [read] using (h d.1).symm) (hn.2 d List.mem_cons_self).2
  | cons c m ih =>
    cases n with
    | nil => exact absurd (by simpa [read] using h c.1) (hm.2 c List.mem_cons_self).2
    | cons d n =>
      obtain ⟨hm1, hm2⟩ := hm
      obtain ⟨hn1, hn2⟩ := hn
      rw [List.pairwise_cons] at hm1 hn1
      have hlow : ∀ (x : Host.Cell) (l : Memory), (∀ y ∈ l, x.1 < y.1) → ∀ a, a ≤ x.1 → Memory.read l a = unlisted :=
        fun x l hl a ha => read_eq_unlisted fun y hy => by have := hl y hy; omega
      have hcd : c.1 = d.1 := by
        rcases Nat.lt_trichotomy c.1 d.1 with hlt | heq | hgt
        · have := h c.1
          rw [read, if_pos rfl, read, if_neg (by omega), hlow d n hn1.1 c.1 (by omega)] at this
          exact absurd this (hm2 c List.mem_cons_self).2
        · exact heq
        · have := h d.1
          rw [read, if_neg (by omega), hlow c m hm1.1 d.1 (by omega), read, if_pos rfl] at this
          exact absurd this.symm (hn2 d List.mem_cons_self).2
      have hv : c.2 = d.2 := by
        have := h c.1
        rw [read, if_pos rfl, read, if_pos hcd.symm] at this
        exact this
      have hrest : m = n := by
        refine ih ⟨hm1.2, fun x hx => hm2 x (List.mem_cons_of_mem _ hx)⟩
          ⟨hn1.2, fun x hx => hn2 x (List.mem_cons_of_mem _ hx)⟩ fun a => ?_
        by_cases ha : c.1 = a
        · rw [hlow c m hm1.1 a (by omega), hlow d n hn1.1 a (by omega)]
        · have := h a
          rwa [read, if_neg ha, read, if_neg (by omega)] at this
      rw [hrest, Prod.ext hcd hv]

end Memory

variable (s : State)

theorem phys_lt (seg off : Word) : phys seg off < Config.memSize := Nat.mod_lt _ (by decide)

theorem nextPhys_lt (pa : Nat) : nextPhys pa < Config.memSize := Nat.mod_lt _ (by decide)

theorem nextPhys_ne (pa : Nat) : nextPhys pa ≠ pa := by unfold nextPhys Config.memSize; omega

theorem memRead8_memWrite8 (a b : Nat) (v : Byte) :
    (s.memWrite8 a v).memRead8 b = if b = a then v else s.memRead8 b := Memory.read_write _ _ _ _

theorem memRead8_memWrite16 (a b : Nat) (v : Word) :
    (s.memWrite16 a v).memRead8 b =
      if b = a then loByte v else if b = nextPhys a then hiByte v else s.memRead8 b := by
  unfold State.memWrite16 State.memRead8
  rw [Memory.read_write, Memory.read_write]
  by_cases h1 : b = a
  · subst h1; simp [(nextPhys_ne b).symm]
  · simp [h1]

/-- A word write leaves every byte but its two. -/
theorem memRead8_segWrite16 (seg off : Word) (v : Word) (a : Nat) (h1 : a ≠ phys seg off)
    (h2 : a ≠ nextPhys (phys seg off)) : (s.segWrite16 seg off v).memRead8 a = s.memRead8 a := by
  unfold State.segWrite16; rw [memRead8_memWrite16, if_neg h1, if_neg h2]

theorem memRead16_eq (a : Nat) : s.memRead16 a = mkWord (s.memRead8 (nextPhys a)) (s.memRead8 a) := rfl

theorem memRead16_memWrite16_self (a : Nat) (v : Word) : (s.memWrite16 a v).memRead16 a = v := by
  rw [memRead16_eq, memRead8_memWrite16, memRead8_memWrite16]
  simp [nextPhys_ne]

@[simp] theorem segRead16_segWrite16_self (seg off : Word) (v : Word) :
    (s.segWrite16 seg off v).segRead16 seg off = v := memRead16_memWrite16_self _ _ _

@[simp] theorem segRead8_segWrite8_self (seg off : Word) (v : Byte) :
    (s.segWrite8 seg off v).segRead8 seg off = v := by
  unfold State.segWrite8 State.segRead8; rw [memRead8_memWrite8, if_pos rfl]

/-- A word read that shares no byte with a word write gives what it gave before. -/
theorem memRead16_memWrite16_of_ne (a b : Nat) (v : Word) (h1 : b ≠ a) (h2 : b ≠ nextPhys a) (h3 : nextPhys b ≠ a)
    (h4 : nextPhys b ≠ nextPhys a) : (s.memWrite16 a v).memRead16 b = s.memRead16 b := by
  rw [memRead16_eq, memRead8_memWrite16, memRead8_memWrite16, if_neg h1, if_neg h2, if_neg h3, if_neg h4, memRead16_eq]

theorem reset_mem_wf : State.reset.mem.wf := by decide

end Sys2Proof.Machine
end

