-- ==== Sys2Proof/Laws/Ops.lean ====
section
/-! SUPPORT. Registers after a register write, the stack in one segment, and the interrupt-call as one record update. -/

namespace Sys2Proof.Machine

theorem Regs.get_set (r : Regs) (i j : Reg16) (v : Word) : (r.set i v).get j = if j = i then v else r.get j := by
  cases i <;> cases j <;> rfl

theorem Segs.get_set (r : Segs) (i j : SegReg) (v : Word) : (r.set i v).get j = if j = i then v else r.get j := by
  cases i <;> cases j <;> rfl

theorem Regs.get_set8 (r : Regs) (i : Reg8) (j : Reg16) (v : Byte) (h : j ≠ Reg8.home i) :
    (r.set8 i v).get j = r.get j := by
  rw [Regs.set8, Regs.get_set, if_neg h]

theorem Regs.get8_set (r : Regs) (i : Reg16) (j : Reg8) (v : Word) (h : Reg8.home j ≠ i) :
    (r.set i v).get8 j = r.get8 j := by
  simp only [Regs.get8, Regs.get_set, if_neg h]

theorem Regs.get8_set8 (r : Regs) (i j : Reg8) (v : Byte) : (r.set8 i v).get8 j = if j = i then v else r.get8 j := by
  cases i <;> cases j <;> simp [Regs.get8, Regs.set8, Regs.get, Regs.set, Reg8.home, Reg8.isHigh, Laws.loByte_mkWord, Laws.hiByte_mkWord]

/-- Both halves of AX written, one after the other. -/
theorem Regs.set8_al_ah (r : Regs) (l h : Byte) : (r.set8 .al l).set8 .ah h = { r with ax := mkWord h l } := by
  simp [Regs.set8, Regs.get, Regs.set, Reg8.home, Reg8.isHigh]

theorem Regs.set8_ah_al (r : Regs) (l h : Byte) : (r.set8 .ah h).set8 .al l = { r with ax := mkWord h l } := by
  simp [Regs.set8, Regs.get, Regs.set, Reg8.home, Reg8.isHigh]

theorem loByte_toNat (v : Word) : (loByte v).toNat = v.toNat % 256 := by
  simp [loByte, BitVec.extractLsb'_toNat]

theorem hiByte_toNat (v : Word) : (hiByte v).toNat = v.toNat / 256 := by
  have := v.isLt
  simp [hiByte, BitVec.extractLsb'_toNat, Nat.shiftRight_eq_div_pow]
  omega

theorem mkWord_toNat (h l : Byte) : (mkWord h l).toNat = 256 * h.toNat + l.toNat := by
  have := l.isLt
  simp only [mkWord, BitVec.toNat_append]
  rw [Nat.shiftLeft_eq, Nat.mul_comm, ← Nat.two_pow_add_eq_or_of_lt (by omega)]

theorem loByte_eq (v : Word) : loByte v = BitVec.ofNat 8 v.toNat := by
  apply BitVec.eq_of_toNat_eq; rw [loByte_toNat]; simp

theorem hiByte_eq (v : Word) : hiByte v = BitVec.ofNat 8 (v.toNat / 256) := by
  have := v.isLt
  apply BitVec.eq_of_toNat_eq; rw [hiByte_toNat]; simp; omega

variable (s : State)

/-- Words two or more bytes apart in one segment do not overlap. -/
theorem segRead16_segWrite16_of_apart (seg o p : Word) (v : Word)
    (h : o.toNat + 2 ≤ p.toNat ∨ p.toNat + 2 ≤ o.toNat) :
    (s.segWrite16 seg o v).segRead16 seg p = s.segRead16 seg p := by
  have := seg.isLt
  have := o.isLt
  have := p.isLt
  apply memRead16_memWrite16_of_ne <;> simp only [phys, nextPhys, Config.memSize] <;> omega

/-- The words at SS:SP - 2, SP - 4 and SP - 6 after `flags`, CS and IP are stored there. -/
def State.pushFrame (s : State) : State :=
  ((s.segWrite16 s.segs.ss (s.regs.sp - 2) s.flags).segWrite16 s.segs.ss (s.regs.sp - 4) s.segs.cs).segWrite16
    s.segs.ss (s.regs.sp - 6) s.ip

theorem sub_two_sub_two (v : Word) : v - 2 - 2 = v - 4 := by bv_omega

theorem sub_four_sub_two (v : Word) : v - 4 - 2 = v - 6 := by bv_omega

/-- R801 as one record update. -/
theorem interruptCall_eq (v : Byte) : interruptCall v s =
    { s with
      regs := { s.regs with sp := s.regs.sp - 6 }
      segs := { s.segs with cs := s.memRead16 (4 * v.toNat + 2) }
      ip := s.memRead16 (4 * v.toNat)
      flags := setFlag (setFlag s.flags .ie false) .tf false
      mem := s.pushFrame.mem
      tr := { s.tr with calledInt := true } } := by
  simp only [interruptCall, State.push16_eq, State.segWrite16, State.memWrite16, sub_two_sub_two, sub_four_sub_two,
    State.pushFrame]

theorem pushFrame_ip : s.pushFrame.segRead16 s.segs.ss (s.regs.sp - 6) = s.ip := segRead16_segWrite16_self _ _ _ _

theorem pushFrame_cs : s.pushFrame.segRead16 s.segs.ss (s.regs.sp - 4) = s.segs.cs := by
  rw [State.pushFrame, segRead16_segWrite16_of_apart _ _ _ _ _ (by bv_omega), segRead16_segWrite16_self]

theorem pushFrame_flags : s.pushFrame.segRead16 s.segs.ss (s.regs.sp - 2) = s.flags := by
  rw [State.pushFrame, segRead16_segWrite16_of_apart _ _ _ _ _ (by bv_omega),
    segRead16_segWrite16_of_apart _ _ _ _ _ (by bv_omega), segRead16_segWrite16_self]

/-- A word read depends on memory alone. -/
theorem segRead16_congr {s t : State} (h : s.mem = t.mem) (seg off : Word) :
    s.segRead16 seg off = t.segRead16 seg off := by
  simp only [State.segRead16, State.memRead16, h]

theorem segRead8_congr {s t : State} (h : s.mem = t.mem) (seg off : Word) :
    s.segRead8 seg off = t.segRead8 seg off := by
  simp only [State.segRead8, State.memRead8, h]

/-- R811 as one record update. -/
theorem interruptReturn_eq : interruptReturn s =
    { s with
      ip := s.segRead16 s.segs.ss s.regs.sp
      segs := { s.segs with cs := s.segRead16 s.segs.ss (s.regs.sp + 2) }
      flags := s.segRead16 s.segs.ss (s.regs.sp + 4)
      regs := { s.regs with sp := s.regs.sp + 6 } } := by
  have h4 : s.regs.sp + 2 + 2 = s.regs.sp + 4 := by bv_omega
  have h6 : s.regs.sp + 4 + 2 = s.regs.sp + 6 := by bv_omega
  simp only [interruptReturn, State.drop16_eq, State.top16, State.setSreg, Segs.set, State.segRead16, State.memRead16, h4, h6]

end Sys2Proof.Machine
end

