-- ==== Sys2Proof/Laws/Arith.lean ====
section
/-! SUPPORT. Arithmetic in numbers: the results of the additions and subtractions, the flags of a product, and one step of a
shift or rotate. -/

namespace Sys2Proof.Machine

theorem addFlags_toNat {w : Nat} (hw : 1 ≤ w) (d s : BitVec w) (c : Bool) (fl : Word) :
    (addFlags d s c fl).1.toNat = (d.toNat + s.toNat + c.toNat) % 2 ^ w := by
  simp [addFlags_result, bit_toNat hw]

theorem subFlags_toNat {w : Nat} (hw : 1 ≤ w) (d s : BitVec w) (b : Bool) (fl : Word) :
    ((subFlags d s b fl).1.toNat : Int) = ((d.toNat : Int) - s.toNat - b.toNat) % 2 ^ w := by
  have hs := s.isLt
  have hb : b.toNat < 2 ^ w := by
    have := Nat.one_lt_two_pow (n := w) (by omega)
    cases b
    · simp
    · simp; omega
  rw [subFlags_result, BitVec.toNat_sub, BitVec.toNat_sub, bit_toNat hw, Nat.add_mod_mod, Int.natCast_mod,
    Nat.cast_pow, Nat.cast_ofNat,
    show ((2 ^ w - b.toNat + (2 ^ w - s.toNat + d.toNat) : Nat) : Int)
      = ((d.toNat : Int) - s.toNat - b.toNat) + 2 * 2 ^ w by
        rw [Nat.cast_add, Nat.cast_add, Nat.cast_sub (Nat.le_of_lt hb), Nat.cast_sub (Nat.le_of_lt hs)]; push_cast; omega,
    Int.add_mul_emod_self_right]

/-- R411, R412: what a product does to FLAGS: CF = OF = `b`, the four others are draws, the rest is kept. -/
theorem getLsbD_mulFlags (b : Bool) (s : State) (k : Nat) (h : k ∉ [2, 4, 6, 7]) :
    (mulFlags b s).flags.getLsbD k = if k = 0 ∨ k = 11 then b else s.flags.getLsbD k := by
  have e : (mulFlags b s).flags =
      [Flag.sf, .zf, .af, .pf].foldl (fun fl f => Machine.setFlag fl f (drawnFlag s.draws f))
        (Machine.setFlag (Machine.setFlag s.flags .cf b) .ovf b) := rfl
  rw [e, getLsbD_foldl_setFlag _ _ _ _ (by
    intro f hf he
    subst he
    simp only [List.mem_cons, List.not_mem_nil, or_false] at hf
    rcases hf with rfl | rfl | rfl | rfl <;> simp [Flag.bit] at h),
    getLsbD_setFlag_ovf, getLsbD_setFlag_cf]
  by_cases h0 : k = 0 <;> by_cases h1 : k = 11 <;> simp [h0, h1]

theorem iter_succ_outer {α : Type} (f : α → α) (k : Nat) (x : α) : iter f (k + 1) x = f (iter f k x) := by
  induction k generalizing x with
  | zero => rfl
  | succ k ih => exact ih (f x)

/-- R506: a count of `k + 1` is a count of `k` and one more step. -/
theorem ShiftOp.run_succ {w : Nat} (op : ShiftOp) (k : Nat) (v : BitVec w) (c : Bool) :
    op.run (k + 1) v c = op.step (op.run k v c) := iter_succ_outer _ _ _

@[simp] theorem ShiftOp.run_zero {w : Nat} (op : ShiftOp) (v : BitVec w) (c : Bool) : op.run 0 v c = (v, c) := rfl

theorem shift8_zero (op : ShiftOp) (d : Operand8) (s : State) : shift8 op 0 d s = s := by simp [shift8]

theorem shift16_zero (op : ShiftOp) (d : Operand16) (s : State) : shift16 op 0 d s = s := by simp [shift16]

end Sys2Proof.Machine
end

