-- ==== Sys2Proof/Laws/Mcb.lean ====
section
/-! SUPPORT. The MCB allocator: the fields of headers after a field is written, and that an operation changes memory (which
stays in its canonical form), the status and the answer, nothing else. -/

namespace Sys2Proof.Machine

section Fields

variable (s : State) (h k : Nat)

/-- Bytes 0 to 4 of two headers at segments up to 0xFFFF coincide only where both segment and byte do. -/
theorem mcbAddr_inj {h k i j : Nat} (_hh : h < 65536) (hk : k < 65536) (_hi : i < 5) (hj : j < 5) :
    mcbAddr h i = mcbAddr k j ↔ h = k ∧ i = j := by
  simp only [mcbAddr, Config.memSize]; omega

theorem nextPhys_mcbAddr (h i : Nat) : nextPhys (mcbAddr h i) = mcbAddr h (i + 1) := by
  simp only [mcbAddr, nextPhys, Config.memSize]; omega

theorem memRead16_mcb (i : Nat) :
    s.memRead16 (mcbAddr h i) = mkWord (s.memRead8 (mcbAddr h (i + 1))) (s.memRead8 (mcbAddr h i)) := by
  rw [memRead16_eq, nextPhys_mcbAddr]

theorem memRead8_mcb_write8 (hh : h < 65536) (hk : k < 65536) (i j : Nat) (hi : i < 5) (hj : j < 5) (v : Byte) :
    (s.memWrite8 (mcbAddr h i) v).memRead8 (mcbAddr k j) =
      if k = h ∧ j = i then v else s.memRead8 (mcbAddr k j) := by
  rw [memRead8_memWrite8]; simp only [mcbAddr_inj hk hh hj hi]

theorem memRead8_mcb_write16 (hh : h < 65536) (hk : k < 65536) (i j : Nat) (hi : i < 4) (hj : j < 5) (v : Word) :
    (s.memWrite16 (mcbAddr h i) v).memRead8 (mcbAddr k j) =
      if k = h ∧ j = i then loByte v else if k = h ∧ j = i + 1 then hiByte v else s.memRead8 (mcbAddr k j) := by
  rw [memRead8_memWrite16, nextPhys_mcbAddr]
  simp only [mcbAddr_inj hk hh hj (show i < 5 by omega), mcbAddr_inj hk hh hj (show i + 1 < 5 by omega)]

variable {h k} (hh : h < 65536) (hk : k < 65536)

include hh hk

theorem mcbSig_setMcbSig (v : Byte) : mcbSig (setMcbSig s h v) k = if k = h then v else mcbSig s k := by
  simp [mcbSig, setMcbSig, memRead8_mcb_write8 s h k hh hk]

theorem mcbSig_setMcbOwner (v : Word) : mcbSig (setMcbOwner s h v) k = mcbSig s k := by
  simp [mcbSig, setMcbOwner, memRead8_mcb_write16 s h k hh hk]

theorem mcbSig_setMcbSize (n : Nat) : mcbSig (setMcbSize s h n) k = mcbSig s k := by
  simp [mcbSig, setMcbSize, memRead8_mcb_write16 s h k hh hk]

theorem mcbOwner_setMcbSig (v : Byte) : mcbOwner (setMcbSig s h v) k = mcbOwner s k := by
  simp [mcbOwner, setMcbSig, memRead16_mcb _ k, memRead8_mcb_write8 s h k hh hk]

theorem mcbOwner_setMcbOwner (v : Word) : mcbOwner (setMcbOwner s h v) k = if k = h then v else mcbOwner s k := by
  by_cases e : k = h
  · subst e; simp [mcbOwner, setMcbOwner, memRead16_memWrite16_self]
  · simp [mcbOwner, setMcbOwner, memRead16_mcb _ k, memRead8_mcb_write16 s h k hh hk, e]

theorem mcbOwner_setMcbSize (n : Nat) : mcbOwner (setMcbSize s h n) k = mcbOwner s k := by
  simp [mcbOwner, setMcbSize, memRead16_mcb _ k, memRead8_mcb_write16 s h k hh hk]

theorem mcbSize_setMcbSig (v : Byte) : mcbSize (setMcbSig s h v) k = mcbSize s k := by
  simp [mcbSize, setMcbSig, memRead16_mcb _ k, memRead8_mcb_write8 s h k hh hk]

theorem mcbSize_setMcbOwner (v : Word) : mcbSize (setMcbOwner s h v) k = mcbSize s k := by
  simp [mcbSize, setMcbOwner, memRead16_mcb _ k, memRead8_mcb_write16 s h k hh hk]

theorem mcbSize_setMcbSize (n : Nat) (hn : n < 65536) :
    mcbSize (setMcbSize s h n) k = if k = h then n else mcbSize s k := by
  by_cases e : k = h
  · subst e; simp [mcbSize, setMcbSize, memRead16_memWrite16_self, hn]
  · simp [mcbSize, setMcbSize, memRead16_mcb _ k, memRead8_mcb_write16 s h k hh hk, e]

end Fields

/-- `t` is `s` with another memory, in canonical form where that of `s` is. -/
def MemOnly (s t : State) : Prop := ∃ m, t = { s with mem := m } ∧ (s.mem.wf → m.wf)

namespace MemOnly

variable {s t u : State}

theorem refl (s : State) : MemOnly s s := ⟨s.mem, rfl, id⟩

theorem trans (h : MemOnly s t) (h' : MemOnly t u) : MemOnly s u := by
  obtain ⟨m, rfl, hm⟩ := h
  obtain ⟨n, rfl, hn⟩ := h'
  exact ⟨n, rfl, fun x => hn (hm x)⟩

theorem params (h : MemOnly s t) : t.params = s.params := by obtain ⟨m, rfl, -⟩ := h; rfl

theorem write8 (s : State) (a : Nat) (v : Byte) (h : a < Config.memSize) : MemOnly s (s.memWrite8 a v) :=
  ⟨_, rfl, fun x => Memory.wf_write x a v h⟩

theorem write16 (s : State) (a : Nat) (v : Word) (h : a < Config.memSize) : MemOnly s (s.memWrite16 a v) :=
  ⟨_, rfl, fun x => Memory.wf_write (Memory.wf_write x _ _ h) _ _ (nextPhys_lt a)⟩

theorem mcbAddr_lt (h k : Nat) : mcbAddr h k < Config.memSize := Nat.mod_lt _ (by decide)

theorem setSig (s : State) (h : Nat) (v : Byte) : MemOnly s (setMcbSig s h v) := write8 _ _ _ (mcbAddr_lt _ _)

theorem setOwner (s : State) (h : Nat) (v : Word) : MemOnly s (setMcbOwner s h v) := write16 _ _ _ (mcbAddr_lt _ _)

theorem setSize (s : State) (h n : Nat) : MemOnly s (setMcbSize s h n) := write16 _ _ _ (mcbAddr_lt _ _)

theorem set (s : State) (h : Nat) (sig : Byte) (owner : Word) (n : Nat) : MemOnly s (setMcb s h sig owner n) :=
  ((setSig _ _ _).trans (setOwner _ _ _)).trans (setSize _ _ _)

theorem coalesce (n : Nat) (s : State) (h : Nat) : MemOnly s (coalesce n s h).1 := by
  induction n generalizing s with
  | zero => exact refl s
  | succ n ih =>
    unfold Machine.coalesce
    dsimp only
    split; · exact refl s
    split; · exact refl s
    split; · exact refl s
    split; · exact refl s
    exact ((setSize _ _ _).trans (setSig _ _ _)).trans (ih _)

theorem coalesceIf (s : State) (h : Nat) :
    MemOnly s (if mcbOwner s h = 0 then Machine.coalesce mcbFuel s h else (s, none)).1 := by
  split
  · exact coalesce _ _ _
  · exact refl s

theorem allocWalk (n : Nat) (st : Strategy) (r : Nat) (s : State) (h : Nat) (c : Option Nat) (l : Nat) :
    MemOnly s (allocWalk n st r s h c l).1 := by
  induction n generalizing s h c l with
  | zero => exact refl s
  | succ n ih =>
    have hc := coalesceIf s h
    unfold Machine.allocWalk
    dsimp only
    split
    · exact refl s
    · generalize (if mcbOwner s h = 0 then Machine.coalesce mcbFuel s h else (s, none)) = x at hc ⊢
      split
      · exact hc
      · split
        · exact hc
        · split
          · exact hc
          · exact hc.trans (ih _ _ _ _)

theorem splitFront (s : State) (h r : Nat) (pid : Word) : MemOnly s (splitFront s h r pid).1 := by
  unfold Machine.splitFront
  dsimp only
  split
  · exact (((set _ _ _ _ _).trans (setSig _ _ _)).trans (setSize _ _ _)).trans (setOwner _ _ _)
  · exact setOwner _ _ _

theorem splitTail (s : State) (h r : Nat) (pid : Word) : MemOnly s (splitTail s h r pid).1 := by
  unfold Machine.splitTail
  dsimp only
  split
  · exact ((set _ _ _ _ _).trans (setSig _ _ _)).trans (setSize _ _ _)
  · exact setOwner _ _ _

theorem split (st : Strategy) (s : State) (h r : Nat) (pid : Word) : MemOnly s (split st s h r pid).1 := by
  cases st
  · exact splitFront _ _ _ _
  · exact splitFront _ _ _ _
  · exact splitTail _ _ _ _

theorem okAfterValidate (s : State) (seg : Nat) : MemOnly s (okAfterValidate s seg).1 := by
  unfold Machine.okAfterValidate
  split <;> exact refl s

theorem mcbAllocate (s : State) (r : Word) (st : Strategy) (pid : Word) : MemOnly s (mcbAllocate s r st pid).1 := by
  unfold Machine.mcbAllocate
  split
  · exact refl s
  · dsimp only
    split
    · exact allocWalk _ _ _ _ _ _ _
    · exact allocWalk _ _ _ _ _ _ _
    · exact ((allocWalk _ _ _ _ _ _ _).trans (split _ _ _ _ _)).trans (okAfterValidate _ _)

theorem mcbCoalesce (s : State) (h : Word) : MemOnly s (mcbCoalesce s h).1 := by
  unfold Machine.mcbCoalesce
  split
  · exact refl s
  · exact coalesce _ _ _

theorem mcbFree (s : State) (seg : Word) : MemOnly s (mcbFree s seg).1 := by
  unfold Machine.mcbFree
  dsimp only
  split
  · exact refl s
  · exact (setOwner _ _ _).trans (okAfterValidate _ _)

theorem mcbReallocate (s : State) (seg m : Word) : MemOnly s (mcbReallocate s seg m).1 := by
  have hc := coalesce mcbFuel s (headerOf seg)
  unfold Machine.mcbReallocate
  dsimp only
  split
  · exact refl s
  · split
    · exact hc
    · split
      · exact hc
      · refine (hc.trans ?_).trans (okAfterValidate _ _)
        split
        · exact ((set _ _ _ _ _).trans (setSig _ _ _)).trans (setSize _ _ _)
        · exact refl _

theorem writeBytes (s : State) (seg off : Word) (bs : List Byte) : MemOnly s (s.writeBytes seg off bs) := by
  induction bs generalizing s off with
  | nil => exact refl s
  | cons b bs ih => exact (write8 _ _ _ (phys_lt _ _)).trans (ih _ _)

end MemOnly

/-- An allocator operation changes memory, the status and the answer only. -/
theorem runMcb_change (op : McbOp) (s : State) :
    ∃ m st r, runMcb op s = { s with mem := m, status := st, mcbResult := r } ∧ (s.mem.wf → m.wf) := by
  have hw : ∀ x : State × McbResult, MemOnly s x.1 →
      ∃ m st r, withMcbResult x = { s with mem := m, status := st, mcbResult := r } ∧ (s.mem.wf → m.wf) := by
    rintro ⟨t, r⟩ ⟨m, rfl, hm⟩
    cases r <;> exact ⟨m, _, _, rfl, hm⟩
  have ha : ∀ x : State × Option McbResult, MemOnly s x.1 →
      ∃ m st r, withMcbAnswer x = { s with mem := m, status := st, mcbResult := r } ∧ (s.mem.wf → m.wf) := by
    rintro ⟨t, _ | r⟩ h
    · obtain ⟨m, rfl, hm⟩ := h
      exact ⟨m, _, _, rfl, hm⟩
    · exact hw (t, r) h
  cases op with
  | boot => exact ha (mcbBoot s, none) (MemOnly.set s _ _ _ _)
  | coalesce h => exact ha _ (MemOnly.mcbCoalesce s h)
  | validate => exact hw (s, _) (MemOnly.refl s)
  | allocate r st pid => exact hw _ (MemOnly.mcbAllocate s r st pid)
  | free seg => exact hw _ (MemOnly.mcbFree s seg)
  | reallocate seg m => exact hw _ (MemOnly.mcbReallocate s seg m)

/-- Validate looks at memory and the parameters only. -/
theorem validateFrom_congr (s t : State) (h : s.mem = t.mem) (n k : Nat) : validateFrom n s k = validateFrom n t k := by
  have e1 : ∀ j, mcbSig s j = mcbSig t j := fun j => by simp only [mcbSig, State.memRead8, h]
  have e2 : ∀ j, mcbSize s j = mcbSize t j := fun j => by simp only [mcbSize, State.memRead16, h]
  induction n generalizing k with
  | zero => rfl
  | succ n ih =>
    rw [validateFrom, validateFrom, show mcbValid s k = mcbValid t k by simp only [mcbValid, e1], e1 k,
      show mcbNext s k = mcbNext t k by simp only [mcbNext, e2], ih]

theorem mcbValidate_congr {s t : State} (h : s.mem = t.mem) (hp : s.params = t.params) : mcbValidate s = mcbValidate t := by
  rw [mcbValidate, mcbValidate, hp]; exact validateFrom_congr s t h _ _

end Sys2Proof.Machine
end

