-- ==== Sys2Proof/Laws/Chain.lean ====
section
/-! SUPPORT. Chains of blocks (`Spec.Chain`): what a header's update does to them, and that coalescing, splitting and the
allocator's walk on memory are the functions on lists of blocks of the statements. -/

namespace Sys2Proof.Spec

open Sys2Proof.Machine

/-- From `s` to `t` only bytes of the headers at segments of `P` change. -/
structure HeaderFrame (P : Nat → Prop) (s t : State) : Prop where
  only : t = { s with mem := t.mem }
  bytes : ∀ a, (∀ h, P h → ∀ k, k < 5 → a ≠ mcbAddr h k) → t.memRead8 a = s.memRead8 a

namespace HeaderFrame

variable {P Q : Nat → Prop} {s t u : State}

theorem refl : HeaderFrame P s s := ⟨rfl, fun _ _ => rfl⟩

theorem trans (h : HeaderFrame P s t) (h' : HeaderFrame P t u) : HeaderFrame P s u :=
  ⟨by rw [h'.only, h.only], fun a ha => (h'.bytes a ha).trans (h.bytes a ha)⟩

theorem mono (h : HeaderFrame P s t) (hPQ : ∀ k, P k → Q k) : HeaderFrame Q s t :=
  ⟨h.only, fun a ha => h.bytes a fun k hk => ha k (hPQ k hk)⟩

theorem params (h : HeaderFrame P s t) : t.params = s.params := by rw [h.only]

theorem setSig {h : Nat} (hh : P h) (v : Byte) : HeaderFrame P s (setMcbSig s h v) :=
  ⟨rfl, fun a ha => by rw [setMcbSig, memRead8_memWrite8, if_neg (ha h hh 0 (by decide))]⟩

theorem setOwner {h : Nat} (hh : P h) (v : Word) : HeaderFrame P s (setMcbOwner s h v) :=
  ⟨rfl, fun a ha => by
    rw [setMcbOwner, memRead8_memWrite16, nextPhys_mcbAddr, if_neg (ha h hh 1 (by decide)), if_neg (ha h hh 2 (by decide))]⟩

theorem setSize {h : Nat} (hh : P h) (n : Nat) : HeaderFrame P s (setMcbSize s h n) :=
  ⟨rfl, fun a ha => by
    rw [setMcbSize, memRead8_memWrite16, nextPhys_mcbAddr, if_neg (ha h hh 3 (by decide)), if_neg (ha h hh 4 (by decide))]⟩

theorem setMcb {h : Nat} (hh : P h) (v : Byte) (o : Word) (n : Nat) : HeaderFrame P s (setMcb s h v o n) :=
  ((setSig hh _).trans (setOwner hh _)).trans (setSize hh _)

/-- A header outside `P` reads as before. -/
theorem header (h : HeaderFrame P s t) (hP : ∀ k, P k → k < 65536) {k : Nat} (hk : k < 65536) (hn : ¬P k) :
    mcbSig t k = mcbSig s k ∧ mcbOwner t k = mcbOwner s k ∧ mcbSize t k = mcbSize s k := by
  have hb : ∀ j, j < 5 → t.memRead8 (mcbAddr k j) = s.memRead8 (mcbAddr k j) := fun j hj =>
    h.bytes _ fun x hx i hi e => hn (by rw [((mcbAddr_inj hk (hP x hx) hj hi).1 e).1]; exact hx)
  refine ⟨hb 0 (by decide), ?_, ?_⟩
  · rw [mcbOwner, mcbOwner, memRead16_mcb, memRead16_mcb, hb 1 (by decide), hb 2 (by decide)]
  · rw [mcbSize, mcbSize, memRead16_mcb, memRead16_mcb, hb 3 (by decide), hb 4 (by decide)]

end HeaderFrame

namespace Chain

variable {s t : State} {h : Nat} {bs : List Block}

theorem length_le (hc : Chain s h bs) : h + bs.length ≤ 65536 := by
  induction bs generalizing h with
  | nil => exact hc
  | cons b bs ih => have := ih hc.2.2.2; simp only [List.length_cons]; omega

theorem span_le (hc : Chain s h bs) : h + span bs ≤ 65536 := by
  induction bs generalizing h with
  | nil => exact hc
  | cons b bs ih => have := ih hc.2.2.2; simp only [span]; omega

/-- A chain of which the headers from `h` on are unchanged. -/
theorem congr (hc : Chain s h bs) (he : ∀ k, h ≤ k → k < 65536 →
    mcbSig t k = mcbSig s k ∧ mcbOwner t k = mcbOwner s k ∧ mcbSize t k = mcbSize s k) : Chain t h bs := by
  induction bs generalizing h with
  | nil => exact hc
  | cons b bs ih =>
    have hl := hc.length_le
    simp only [List.length_cons] at hl
    obtain ⟨e1, e2, e3⟩ := he h (Nat.le_refl _) (by omega)
    exact ⟨e1.trans hc.1, e2.trans hc.2.1, e3.trans hc.2.2.1, ih hc.2.2.2 fun k hk => he k (by omega)⟩

/-- The header of the first block, and the chain behind it. -/
theorem valid {b : Block} (hc : Chain s h (b :: bs)) : mcbValid s h = true := by
  have := hc.1
  unfold mcbValid sigMore sigLast
  split at this <;> simp [this]

theorem next {b : Block} (hc : Chain s h (b :: bs)) : mcbNext s h = h + 1 + b.size := by rw [mcbNext, hc.2.2.1]

theorem isLast {b : Block} (hc : Chain s h (b :: bs)) : mcbSig s h = sigLast ↔ bs = [] := by
  have := hc.1
  by_cases e : bs = []
  · simpa [e, sigLast] using this
  · simp [e] at this; simp [this, e, sigLast]

/-- Behind a prefix of the chain stands the rest. -/
theorem suffix {xs : List Block} (hc : Chain s h (xs ++ bs)) : Chain s (h + span xs) bs := by
  induction xs generalizing h with
  | nil => exact hc
  | cons x xs ih =>
    have := ih hc.2.2.2
    rwa [span, show h + (x.size + 1 + span xs) = h + 1 + x.size + span xs by omega]

/-- A chain whose rest changed is the prefix and the new rest. -/
theorem replace {xs ys : List Block} (hc : Chain s h (xs ++ bs)) (hb : bs ≠ []) (hy : ys ≠ [])
    (hr : Chain t (h + span xs) ys) (he : ∀ k, h ≤ k → k < h + span xs → k < 65536 →
      mcbSig t k = mcbSig s k ∧ mcbOwner t k = mcbOwner s k ∧ mcbSize t k = mcbSize s k) : Chain t h (xs ++ ys) := by
  induction xs generalizing h with
  | nil => exact hr
  | cons x xs ih =>
    have hl := hc.length_le
    simp only [List.cons_append, List.length_cons] at hl
    obtain ⟨e1, e2, e3⟩ := he h (Nat.le_refl _) (by simp only [span]; omega) (by omega)
    refine ⟨?_, e2.trans hc.2.1, e3.trans hc.2.2.1, ih hc.2.2.2 ?_ fun k h1 h2 => he k (by omega) (by simp only [span]; omega)⟩
    · have := hc.1
      simpa [e1, hb, hy] using this
    · rwa [span, show h + (x.size + 1 + span xs) = h + 1 + x.size + span xs by omega] at hr

/-- R755: a chain of blocks is valid. -/
theorem validate (hc : Chain s h bs) (hb : bs ≠ []) {fuel : Nat} (hf : bs.length ≤ fuel) : validateFrom fuel s h = none := by
  induction bs generalizing h fuel with
  | nil => exact absurd rfl hb
  | cons b bs ih =>
    match fuel, hf with
    | fuel + 1, hf =>
      have hl := hc.2.2.2.length_le
      rw [validateFrom, if_neg (by simp [hc.valid]), hc.next]
      by_cases e : bs = []
      · rw [if_pos (hc.isLast.2 e)]
      · have : 0 < bs.length := List.length_pos_of_ne_nil e
        rw [if_neg (fun x => e (hc.isLast.1 x)), if_neg (by omega)]
        exact ih hc.2.2.2 e (by simpa using hf)

end Chain

theorem mcbValidate_of_chain {s : State} {bs : List Block} (hc : Chain s s.params.mcbBase.toNat bs) (hb : bs ≠ []) :
    mcbValidate s = none :=
  hc.validate hb (by have := hc.length_le; unfold mcbFuel; omega)

/-! ### Coalescing (R756) -/

theorem absorb_ne_nil (b : Block) (bs : List Block) : absorb b bs ≠ [] := by
  induction bs generalizing b with
  | nil => simp [absorb]
  | cons c cs ih => unfold absorb; split; exacts [ih _, by simp]

theorem coalesce_chain {s : State} {h : Nat} {b : Block} {bs : List Block} (hc : Chain s h (b :: bs)) {fuel : Nat}
    (hf : bs.length < fuel) :
    ∃ t, coalesce fuel s h = (t, none) ∧ HeaderFrame (· = h) s t ∧ Chain t h (absorb b bs) := by
  induction bs generalizing s b fuel with
  | nil =>
    match fuel, hf with
    | fuel + 1, _ => exact ⟨s, by rw [coalesce, if_pos (hc.isLast.2 rfl)], .refl, hc⟩
  | cons c cs ih =>
    match fuel, hf with
    | fuel + 1, hf =>
      have hr := hc.2.2.2
      have hs := hr.span_le
      simp only [span] at hs
      have hh : h < 65536 := by omega
      unfold coalesce absorb
      rw [if_neg (fun x => by simpa using hc.isLast.1 x)]
      dsimp only
      rw [hc.next, if_neg (by simp [hr.valid]; omega), hr.2.1, hc.2.2.1, hr.2.2.1]
      by_cases ho : c.owner = 0
      · rw [if_neg (by simp [ho]), if_neg (by omega), if_pos ho]
        have hF : HeaderFrame (· = h) s (setMcbSig (setMcbSize s h (b.size + c.size + 1)) h (mcbSig s (h + 1 + b.size))) :=
          (HeaderFrame.setSize (P := (· = h)) rfl _).trans (HeaderFrame.setSig (P := (· = h)) rfl _)
        have hn : Chain (setMcbSig (setMcbSize s h (b.size + c.size + 1)) h (mcbSig s (h + 1 + b.size))) h
            ({ b with size := b.size + c.size + 1 } :: cs) := by
          refine ⟨?_, ?_, ?_, ?_⟩
          · rw [mcbSig_setMcbSig _ hh hh, if_pos rfl]; exact hr.1
          · rw [mcbOwner_setMcbSig _ hh hh, mcbOwner_setMcbSize _ hh hh]; exact hc.2.1
          · rw [mcbSize_setMcbSig _ hh hh, mcbSize_setMcbSize _ hh hh _ (by omega), if_pos rfl]
          · have := hr.2.2.2
            rw [show h + 1 + b.size + 1 + c.size = h + 1 + (b.size + c.size + 1) by omega] at this
            exact this.congr fun k hk hk' => hF.header (by rintro _ rfl; exact hh) hk' (by omega)
        obtain ⟨t, h1, h2, h3⟩ := ih hn (by simpa using hf)
        exact ⟨t, h1, hF.trans h2, h3⟩
      · rw [if_pos (by simpa using ho), if_neg ho]
        exact ⟨s, rfl, .refl, hc⟩

theorem merged_head (c : Block) (cs : List Block) : ∃ d ds, merged (c :: cs) = d :: ds ∧ d.owner = c.owner := by
  unfold merged
  split
  · exact ⟨_, _, rfl, rfl⟩
  · split <;> exact ⟨_, _, rfl, rfl⟩

theorem merged_ne_nil {bs : List Block} (hb : bs ≠ []) : merged bs ≠ [] := by
  match bs, hb with
  | c :: cs, _ => obtain ⟨d, ds, h, -⟩ := merged_head c cs; simp [h]

theorem merged_owned {b : Block} (h : b.owner ≠ 0) (bs : List Block) : merged (b :: bs) = b :: merged bs := by
  rw [merged]
  split
  · next e => rw [e]
  · next e => rw [e, if_neg fun x => h x.1]

/-- A free block and the chain behind it are merged by absorbing at the block and merging the rest. -/
theorem merged_free {b : Block} (h : b.owner = 0) (bs : List Block) : ∃ c cs, absorb b bs = c :: cs ∧ c.owner = 0 ∧
    cs.length ≤ bs.length ∧ (∃ k, cs = bs.drop k ∧ k ≤ bs.length ∧ c.size = b.size + span (bs.take k)) ∧
    merged (b :: bs) = c :: merged cs := by
  induction bs generalizing b with
  | nil => exact ⟨b, [], rfl, h, Nat.le_refl _, ⟨0, rfl, Nat.le_refl _, rfl⟩, rfl⟩
  | cons c cs ih =>
    unfold absorb
    by_cases hc : c.owner = 0
    · obtain ⟨d, ds, h1, h2, h3, ⟨k, h4, h5, h6⟩, h7⟩ := ih (b := { b with size := b.size + c.size + 1 }) h
      rw [if_pos hc]
      refine ⟨d, ds, h1, h2, by simp; omega, ⟨k + 1, by simpa using h4, by simpa using h5, ?_⟩, ?_⟩
      · simp only [List.take_succ_cons, span]; simp only at h6; omega
      · rw [← h7]
        simp only [merged]
        rcases merged cs with _ | ⟨e, es⟩
        · simp [h, show c.owner = 0#16 from hc]
        · by_cases he : e.owner = 0
          · simp only [h, hc, he, and_self, if_true, Block.mk.injEq, List.cons.injEq, true_and, and_true]; omega
          · simp [h, show c.owner = 0#16 from hc, show ¬e.owner = 0#16 from he]
    · rw [if_neg hc]
      refine ⟨b, c :: cs, rfl, h, Nat.le_refl _, ⟨0, rfl, Nat.zero_le _, rfl⟩, ?_⟩
      obtain ⟨d, ds, e, ho⟩ := merged_head c cs
      conv => lhs; unfold merged
      rw [e]
      dsimp only
      rw [if_neg fun x => hc (ho ▸ x.2)]

/-! ### The walk of Allocate (R757 to R760) -/

/-- The header segments of consecutive blocks. -/
def Heads (h : Nat) (bs : List Block) (k : Nat) : Prop := ∃ x ∈ placed h bs, x.1 = k

theorem heads_cons {h k : Nat} {b : Block} {bs : List Block} :
    Heads h (b :: bs) k ↔ k = h ∨ Heads (h + 1 + b.size) bs k := by
  simp [Heads, placed, eq_comm]

theorem heads_ge {h k : Nat} {bs : List Block} (hk : Heads h bs k) : h ≤ k := by
  induction bs generalizing h with
  | nil => simp [Heads, placed] at hk
  | cons b bs ih =>
    rcases heads_cons.1 hk with rfl | hk
    · exact Nat.le_refl _
    · have := ih hk; omega

theorem heads_lt {h k : Nat} {bs : List Block} (hk : Heads h bs k) : k < h + span bs := by
  induction bs generalizing h with
  | nil => simp [Heads, placed] at hk
  | cons b bs ih =>
    rcases heads_cons.1 hk with rfl | hk
    · simp only [span]; omega
    · have := ih hk; simp only [span]; omega

theorem heads_drop {h k n : Nat} {bs : List Block} (hk : Heads (h + span (bs.take n)) (bs.drop n) k) : Heads h bs k := by
  induction bs generalizing h n with
  | nil => simp [Heads, placed] at hk
  | cons b bs ih =>
    cases n with
    | zero => simpa [span] using hk
    | succ n =>
      simp only [List.take_succ_cons, List.drop_succ_cons, span] at hk
      rw [show h + (b.size + 1 + span (bs.take n)) = h + 1 + b.size + span (bs.take n) by omega] at hk
      exact heads_cons.2 (.inr (ih hk))

theorem span_take_drop (n : Nat) (bs : List Block) : span (bs.take n) + span (bs.drop n) = span bs := by
  induction bs generalizing n with
  | nil => simp [span]
  | cons b bs ih => cases n with
    | zero => simp [span]
    | succ n => have := ih n; simp only [List.take_succ_cons, List.drop_succ_cons, span]; omega

/-- The block chosen so far after one that fits. -/
def pickOne (st : Strategy) (c : Option (Nat × Block)) (x : Nat × Block) : Option (Nat × Block) :=
  match st, c with
  | .firstFit, none => some x
  | .firstFit, some y => some y
  | .bestFit, none => some x
  | .bestFit, some y => if x.2.size < y.2.size then some x else some y
  | .lastFit, _ => some x

/-- The walk over blocks of memory is the walk over their list. -/
theorem allocWalk_chain {st : Strategy} {r : Nat} {fuel : Nat} {s : State} {h : Nat} {bs : List Block}
    {chosen : Option (Nat × Block)} {largest : Nat} (hf : bs.length ≤ fuel) (hb : bs ≠ []) (hc : Chain s h bs)
    (hch : ∀ c, chosen = some c → c.1 < h ∧ mcbSize s c.1 = c.2.size) :
    ∃ t, allocWalk fuel st r s h (chosen.map Prod.fst) largest =
        (t, .done (((fitting r h (merged bs)).foldl (pickOne st) chosen).map Prod.fst) (max largest (largestFree (merged bs)))) ∧
      HeaderFrame (Heads h bs) s t ∧ Chain t h (merged bs) := by
  induction fuel generalizing s h bs chosen largest with
  | zero => exact absurd (List.length_eq_zero_iff.1 (Nat.le_zero.1 hf)) hb
  | succ fuel ih =>
    match bs, hb with
    | b :: bs, _ =>
    have hsp := hc.span_le
    simp only [span] at hsp
    have hh : h < 65536 := by omega
    unfold allocWalk
    rw [if_neg (by simp [hc.valid])]
    dsimp only
    by_cases ho : b.owner = 0
    · obtain ⟨c, cs, e1, e2, e3, ⟨k, e4, e5, e6⟩, e7⟩ := merged_free ho bs
      have hl := hc.length_le
      obtain ⟨t, h1, h2, h3⟩ := coalesce_chain hc (fuel := mcbFuel) (by simp only [List.length_cons] at hl; unfold mcbFuel; omega)
      rw [e1] at h3
      rw [if_pos (hc.2.1.trans ho), h1]
      dsimp only
      rw [h3.2.2.1, hc.2.1]
      have hsame : ∀ x, chosen = some x → x.1 < h ∧ mcbSize t x.1 = x.2.size := fun x hx =>
        ⟨(hch x hx).1, (h2.header (by rintro _ rfl; exact hh) (by have := (hch x hx).1; omega)
          (by have := (hch x hx).1; omega)).2.2.trans (hch x hx).2⟩
      have hpick : (if b.owner = 0 ∧ r ≤ c.size then choose st t (chosen.map Prod.fst) h else chosen.map Prod.fst) =
          (if r ≤ c.size then pickOne st chosen (h, c) else chosen).map Prod.fst := by
        by_cases hr : r ≤ c.size
        · simp only [ho, hr, and_self, if_true]
          rcases chosen with _ | x
          · cases st <;> rfl
          · cases st <;> simp only [choose, pickOne, Option.map_some, h3.2.2.1, (hsame x rfl).2]
            split <;> rfl
        · simp only [hr, and_false, if_false]
      rw [hpick, e7, if_pos ho]
      have hlate : ∀ x, (if r ≤ c.size then pickOne st chosen (h, c) else chosen) = some x →
          x.1 < h + 1 + c.size ∧ mcbSize t x.1 = x.2.size := by
        intro x hx
        have : x = (h, c) ∨ chosen = some x := by
          split at hx
          · rcases chosen with _ | y <;> cases st <;> simp only [pickOne] at hx <;> (try split at hx) <;>
              first | exact .inl (Option.some.inj hx).symm | exact .inr hx
          · exact .inr hx
        rcases this with rfl | this
        · exact ⟨by dsimp only; omega, h3.2.2.1⟩
        · exact ⟨by have := (hsame x this).1; omega, (hsame x this).2⟩
      have hfit : (fitting r h (c :: merged cs)).foldl (pickOne st) chosen =
          (fitting r (h + 1 + c.size) (merged cs)).foldl (pickOne st)
            (if r ≤ c.size then pickOne st chosen (h, c) else chosen) := by
        unfold fitting
        rw [placed, List.filter_cons]
        by_cases hr : r ≤ c.size
        · rw [if_pos (by simpa [hr] using e2), if_pos hr, List.foldl_cons]
        · rw [if_neg (by simp [hr]), if_neg hr]
      rw [hfit]
      have hlf : max largest (largestFree (c :: merged cs)) = max (max largest c.size) (largestFree (merged cs)) := by
        simp only [largestFree, e2, if_true]; omega
      rw [hlf]
      by_cases hn : cs = []
      · rw [if_pos (h3.isLast.2 hn)]
        subst hn
        exact ⟨t, by simp [merged, fitting, placed, largestFree], h2.mono fun k hk => heads_cons.2 (.inl hk), h3⟩
      · have hl2 := h3.2.2.2.length_le
        have := List.length_pos_of_ne_nil hn
        rw [if_neg (fun x => hn (h3.isLast.1 x)), h3.next, if_neg (by omega)]
        obtain ⟨u, g1, g2, g3⟩ := ih (by simp only [List.length_cons] at hf; omega) hn h3.2.2.2 hlate
          (largest := max largest c.size)
        have hspc := h3.2.2.2.span_le
        refine ⟨u, g1, (h2.mono fun k hk => heads_cons.2 (.inl hk)).trans (g2.mono fun k' hk => heads_cons.2 (.inr ?_)), ?_⟩
        · rw [e6, e4] at hk
          exact heads_drop (by rwa [show h + 1 + (b.size + span (bs.take k)) = h + 1 + b.size + span (bs.take k) by omega] at hk)
        · have hlt : ∀ j, Heads (h + 1 + c.size) cs j → j < 65536 := fun j hj => by have := heads_lt hj; omega
          obtain ⟨q1, q2, q3⟩ := g2.header hlt hh (fun x => by have := heads_ge x; omega)
          refine ⟨?_, q2.trans h3.2.1, q3.trans h3.2.2.1, g3⟩
          rw [q1, h3.1]
          simp [hn, merged_ne_nil hn]
    · rw [if_neg (by rw [hc.2.1]; exact ho)]
      dsimp only
      rw [hc.2.1]
      rw [if_neg (show ¬(b.owner = 0 ∧ r ≤ mcbSize s h) from fun x => ho x.1), if_neg ho, merged_owned ho]
      have hfit : fitting r h (b :: merged bs) = fitting r (h + 1 + b.size) (merged bs) := by
        unfold fitting
        rw [placed, List.filter_cons, if_neg (by simp only [decide_eq_true_eq]; exact fun x => ho x.1)]
      rw [hfit]
      have hlf : largestFree (b :: merged bs) = largestFree (merged bs) := by simp only [largestFree, ho, if_false]
      rw [hlf]
      by_cases hn : bs = []
      · rw [if_pos (hc.isLast.2 hn)]
        subst hn
        exact ⟨s, by simp [merged, fitting, placed, largestFree], .refl, hc⟩
      · have hl2 := hc.2.2.2.length_le
        have := List.length_pos_of_ne_nil hn
        rw [if_neg (fun x => hn (hc.isLast.1 x)), hc.next, if_neg (by omega)]
        obtain ⟨u, g1, g2, g3⟩ := ih (by simpa using hf) hn hc.2.2.2
          (fun x hx => ⟨by have := (hch x hx).1; omega, (hch x hx).2⟩) (largest := largest)
        have hspc := hc.2.2.2.span_le
        refine ⟨u, g1, g2.mono fun k hk => heads_cons.2 (.inr hk), ?_⟩
        have hlt : ∀ j, Heads (h + 1 + b.size) bs j → j < 65536 := fun j hj => by have := heads_lt hj; omega
        obtain ⟨q1, q2, q3⟩ := g2.header hlt hh (fun x => by have := heads_ge x; omega)
        refine ⟨?_, q2.trans hc.2.1, q3.trans hc.2.2.1, g3⟩
        rw [q1, hc.1]
        simp [hn, merged_ne_nil hn]

/-- Best fit: going on with the smaller one, the earlier of equals, finds the first of the smallest. -/
theorem bestFit_foldl (y : Nat × Block) (xs : List (Nat × Block)) : xs.foldl (pickOne .bestFit) (some y) =
    chosenOf .bestFit (y :: xs) := by
  have hx : ∀ (x : Nat × Block) (zs : List (Nat × Block)),
      (zs.all fun w => decide (x.2.size ≤ w.2.size)) = true ↔ ∀ w ∈ zs, x.2.size ≤ w.2.size := by simp
  induction xs generalizing y with
  | nil => simp [chosenOf]
  | cons z zs ih =>
    rw [List.foldl_cons, pickOne]
    simp only [chosenOf] at ih ⊢
    split
    · next hlt =>
      rw [ih, List.find?_cons_of_neg (a := y) (fun h => by have := (hx _ _).1 h z (by simp); omega)]
      refine List.find?_congr fun x _ => Bool.eq_iff_iff.2 ((hx _ _).trans (Iff.trans ?_ (hx _ _).symm))
      simp only [List.forall_mem_cons]
      exact ⟨fun h => ⟨by omega, h⟩, And.right⟩
    · next hge =>
      rw [ih]
      by_cases hy : ∀ w ∈ zs, y.2.size ≤ w.2.size
      · rw [List.find?_cons_of_pos (a := y) ((hx y (y :: zs)).2 (List.forall_mem_cons.2 ⟨Nat.le_refl _, hy⟩)),
          List.find?_cons_of_pos (a := y) ((hx y (y :: z :: zs)).2
            (List.forall_mem_cons.2 ⟨Nat.le_refl _, List.forall_mem_cons.2 ⟨by omega, hy⟩⟩))]
      · rw [List.find?_cons_of_neg (a := y) (fun h => hy fun w hw => (hx _ _).1 h w (by simp [hw])),
          List.find?_cons_of_neg (a := y) (fun h => hy fun w hw => (hx _ _).1 h w (by simp [hw])),
          List.find?_cons_of_neg (a := z) (fun h => hy fun w hw => by
            have := (hx _ _).1 h w (by simp [hw]); omega)]
        refine List.find?_congr fun x _ => Bool.eq_iff_iff.2 ((hx _ _).trans (Iff.trans ?_ (hx _ _).symm))
        simp only [List.forall_mem_cons]
        exact ⟨fun h => ⟨h.1, by omega, h.2⟩, fun h => ⟨h.1, h.2.2⟩⟩

/-- R758 to R760: the block the walk has chosen at its end. -/
theorem foldl_pickOne (st : Strategy) (xs : List (Nat × Block)) : xs.foldl (pickOne st) none = chosenOf st xs := by
  have first : ∀ y, xs.foldl (pickOne .firstFit) (some y) = some y := fun y => by
    induction xs with
    | nil => rfl
    | cons x xs ih => exact ih
  have last : ∀ c, xs.foldl (pickOne .lastFit) c = xs.getLast?.or c := fun c => by
    clear first
    induction xs generalizing c with
    | nil => rfl
    | cons x xs ih => rw [List.foldl_cons, pickOne, ih, List.getLast?_cons]; cases xs.getLast? <;> rfl
  cases st with
  | firstFit => cases xs with
    | nil => rfl
    | cons x xs =>
      rw [List.foldl_cons]
      clear first last
      induction xs with
      | nil => rfl
      | cons z zs ih => exact ih
  | bestFit => cases xs with
    | nil => rfl
    | cons x xs => exact bestFit_foldl x xs
  | lastFit => rw [last, Option.or_none]; rfl

theorem chosenOf_mem {st : Strategy} {xs : List (Nat × Block)} {x : Nat × Block} (h : chosenOf st xs = some x) : x ∈ xs := by
  cases st
  · exact List.mem_of_head? h
  · exact List.mem_of_find?_eq_some h
  · exact List.mem_of_getLast? h

/-- A placed block stands behind a prefix of the list, at the segment the prefix ends at. -/
theorem of_mem_placed {h : Nat} {bs : List Block} {x : Nat × Block} (hx : x ∈ placed h bs) :
    ∃ xs ys, bs = xs ++ x.2 :: ys ∧ x.1 = h + span xs := by
  induction bs generalizing h with
  | nil => simp [placed] at hx
  | cons b bs ih =>
    rcases List.mem_cons.1 hx with rfl | hx
    · exact ⟨[], bs, rfl, rfl⟩
    · obtain ⟨xs, ys, e1, e2⟩ := ih hx
      exact ⟨b :: xs, ys, by simp [e1], by simp only [span, e2]; omega⟩

theorem placed_append (h : Nat) (xs ys : List Block) : placed h (xs ++ ys) = placed h xs ++ placed (h + span xs) ys := by
  induction xs generalizing h with
  | nil => rfl
  | cons x xs ih =>
    rw [List.cons_append, placed, ih, placed, span, show h + (x.size + 1 + span xs) = h + 1 + x.size + span xs by omega]
    rfl

theorem flatMap_placed {h k : Nat} {bs : List Block} (f : Block → List Block) (hk : ¬Heads h bs k) :
    ((placed h bs).flatMap fun y => if y.1 = k then f y.2 else [y.2]) = bs := by
  induction bs generalizing h with
  | nil => rfl
  | cons b bs ih =>
    rw [heads_cons, not_or] at hk
    rw [placed, List.flatMap_cons, ih hk.2, if_neg (fun e => hk.1 e.symm)]
    rfl

/-- The block at one place of a list replaced. -/
theorem replaceAt {h : Nat} (xs ys : List Block) (b : Block) (f : Block → List Block) :
    ((placed h (xs ++ b :: ys)).flatMap fun y => if y.1 = h + span xs then f y.2 else [y.2]) = xs ++ f b ++ ys := by
  rw [placed_append, List.flatMap_append, flatMap_placed f (fun x => by have := heads_lt x; omega), placed, List.flatMap_cons,
    if_pos rfl, flatMap_placed f (fun x => by have := heads_ge x; omega), List.append_assoc]

/-! ### Splitting (R761, R762) -/

theorem setMcb_self {s : State} {h : Nat} (hh : h < 65536) (v : Byte) (o : Word) {n : Nat} (hn : n < 65536) :
    mcbSig (setMcb s h v o n) h = v ∧ mcbOwner (setMcb s h v o n) h = o ∧ mcbSize (setMcb s h v o n) h = n := by
  unfold setMcb
  refine ⟨?_, ?_, ?_⟩
  · rw [mcbSig_setMcbSize _ hh hh, mcbSig_setMcbOwner _ hh hh, mcbSig_setMcbSig _ hh hh, if_pos rfl]
  · rw [mcbOwner_setMcbSize _ hh hh, mcbOwner_setMcbOwner _ hh hh, if_pos rfl]
  · rw [mcbSize_setMcbSize _ hh hh _ hn, if_pos rfl]

/-- A block of a chain cut in two: a header written behind, the front signed `'M'` and shortened. -/
theorem Chain.cut {s : State} {h m : Nat} {o : Word} {b : Block} {bs : List Block} (hc : Chain s h (b :: bs)) (hm : m < b.size) :
    let n := h + 1 + m
    let t := setMcbSize (setMcbSig (setMcb s n (mcbSig s h) o (b.size - m - 1)) h sigMore) h m
    Chain t h ({ b with size := m } :: ⟨o, b.size - m - 1⟩ :: bs) ∧ HeaderFrame (fun k => k = h ∨ k = n) s t := by
  intro n t
  have hs := hc.span_le
  simp only [span] at hs
  have hh : h < 65536 := by omega
  have hn : n < 65536 := by simp only [n]; omega
  have hne : h ≠ n := by simp only [n]; omega
  have hF : HeaderFrame (fun k => k = h ∨ k = n) s t :=
    (HeaderFrame.setMcb (.inr rfl) _ _ _).trans ((HeaderFrame.setSig (.inl rfl) _).trans (HeaderFrame.setSize (.inl rfl) _))
  have hlt : ∀ k, (k = h ∨ k = n) → k < 65536 := by rintro _ (rfl | rfl) <;> assumption
  obtain ⟨a1, a2, a3⟩ := setMcb_self (s := s) hn (mcbSig s h) o (n := b.size - m - 1) (by omega)
  refine ⟨⟨?_, ?_, ?_, ?_, ?_, ?_, ?_⟩, hF⟩
  · rw [if_neg (by simp), mcbSig_setMcbSize _ hh hh, mcbSig_setMcbSig _ hh hh, if_pos rfl]; rfl
  · rw [mcbOwner_setMcbSize _ hh hh, mcbOwner_setMcbSig _ hh hh]
    exact ((HeaderFrame.setMcb (P := (· = n)) rfl _ _ _).header (by rintro _ rfl; exact hn) hh hne).2.1.trans hc.2.1
  · rw [mcbSize_setMcbSize _ hh hh _ (by omega), if_pos rfl]
  · rw [mcbSig_setMcbSize _ hh hn, mcbSig_setMcbSig _ hh hn, if_neg (Ne.symm hne), a1]; exact hc.1
  · rw [mcbOwner_setMcbSize _ hh hn, mcbOwner_setMcbSig _ hh hn, a2]
  · rw [mcbSize_setMcbSize _ hh hn _ (by omega), if_neg (Ne.symm hne), mcbSize_setMcbSig _ hh hn, a3]
  · have := hc.2.2.2
    rw [show h + 1 + b.size = h + 1 + m + 1 + (b.size - m - 1) by omega] at this
    exact this.congr fun k hk hk' => hF.header hlt hk' (by simp only [n]; omega)

/-- A block given to another owner. -/
theorem Chain.own {s : State} {h : Nat} {b : Block} {bs : List Block} (hc : Chain s h (b :: bs)) (o : Word) :
    Chain (setMcbOwner s h o) h ({ b with owner := o } :: bs) := by
  have hs := hc.span_le
  simp only [span] at hs
  have hh : h < 65536 := by omega
  refine ⟨?_, ?_, ?_, hc.2.2.2.congr fun k hk hk' =>
    (HeaderFrame.setOwner (P := (· = h)) rfl o).header (by rintro _ rfl; exact hh) hk' (by omega)⟩
  · rw [mcbSig_setMcbOwner _ hh hh]; exact hc.1
  · rw [mcbOwner_setMcbOwner _ hh hh, if_pos rfl]
  · rw [mcbSize_setMcbOwner _ hh hh]; exact hc.2.2.1

theorem split_chain {st : Strategy} {s : State} {h r : Nat} {pid : Word} {b : Block} {bs : List Block}
    (hc : Chain s h (b :: bs)) (ho : b.owner = 0) (hr : r ≤ b.size) :
    ∃ t, split st s h r pid = (t, dataSegment st r h b) ∧ Chain t h (pieces st r pid b ++ bs) ∧
      HeaderFrame (Heads h (pieces st r pid b ++ bs)) s t := by
  have hs := hc.span_le
  simp only [span] at hs
  have hown : ∀ (u : State) (c : Block) (cs : List Block), HeaderFrame (Heads h (c :: cs)) u (setMcbOwner u h pid) :=
    fun u c cs => HeaderFrame.setOwner (heads_cons.2 (.inl rfl)) _
  by_cases hlt : r < b.size
  · have front : ∃ t, splitFront s h r pid = (t, h + 1) ∧ Chain t h (⟨pid, r⟩ :: ⟨0, b.size - r - 1⟩ :: bs) ∧
        HeaderFrame (Heads h (⟨pid, r⟩ :: ⟨0, b.size - r - 1⟩ :: bs)) s t := by
      obtain ⟨h1, h2⟩ := hc.cut (o := 0) hlt
      refine ⟨_, ?_, h1.own pid, (h2.mono ?_).trans (hown _ _ _)⟩
      · unfold splitFront; dsimp only; rw [hc.2.2.1, if_pos hlt]
      · rintro k (rfl | rfl)
        · exact heads_cons.2 (.inl rfl)
        · exact heads_cons.2 (.inr (heads_cons.2 (.inl rfl)))
    cases st with
    | firstFit | bestFit => simp only [pieces, hlt, if_true, dataSegment]; exact front
    | lastFit =>
      obtain ⟨h1, h2⟩ := hc.cut (o := pid) (m := b.size - r - 1) (by omega)
      rw [show b.size - (b.size - r - 1) - 1 = r by omega, show h + 1 + (b.size - r - 1) = h + b.size - r by omega] at h1 h2
      simp only [pieces, hlt, if_true, dataSegment]
      refine ⟨_, ?_, ?_, h2.mono ?_⟩
      · show splitTail s h r pid = _
        unfold splitTail
        dsimp only
        rw [hc.2.2.1, if_pos hlt, show h + 1 + (b.size - r) = h + b.size - r + 1 by omega]
      · have : ({ b with size := b.size - r - 1 } : Block) = ⟨0, b.size - r - 1⟩ := by rw [← ho]
        rw [this] at h1
        exact h1
      · rintro k (rfl | rfl)
        · exact heads_cons.2 (.inl rfl)
        · refine heads_cons.2 (.inr (heads_cons.2 (.inl ?_)))
          show _ = h + 1 + (b.size - r - 1)
          omega
  · have he : r = b.size := by omega
    have hp : pieces st r pid b = [⟨pid, b.size⟩] := by unfold pieces; rw [if_neg hlt]
    rw [hp]
    refine ⟨setMcbOwner s h pid, ?_, hc.own pid, hown _ _ _⟩
    cases st <;> simp only [split, splitFront, splitTail, hc.2.2.1, if_false, dataSegment, he, Nat.sub_self, Nat.add_zero,
      Nat.lt_irrefl]

end Sys2Proof.Spec
end

