-- ==== Sys2Proof/Laws/Devices.lean ====
section
/-! SUPPORT. The PIT's channels and the callback registry: what a write leaves where. Host actions. -/

namespace Sys2Proof.Machine

theorem Pit.channel_setChannel (p : Pit) (c : Channel) {i j : Nat} (hi : i < 3) (hj : j < 3) :
    (p.setChannel i c).channel j = if j = i then c else p.channel j := by
  match i, j, hi, hj with
  | 0, 0, _, _ | 0, 1, _, _ | 0, 2, _, _ | 1, 0, _, _ | 1, 1, _, _ | 1, 2, _, _ | 2, 0, _, _ | 2, 1, _, _ | 2, 2, _, _ => rfl

/-- A read of a data port moves no counter (R823). -/
theorem Channel.afterRead_ce (c : Channel) : c.afterRead.ce = c.ce := by
  unfold Channel.afterRead; split <;> try split
  all_goals rfl

/-- Cycles change nothing but the counter (R824). -/
theorem Channel.runCycles_eq (c : Channel) (n : Nat) : c.runCycles n = { c with ce := (c.runCycles n).ce } := by
  unfold Channel.runCycles; split <;> try split
  all_goals rfl

/-- R10: an installed id is found with its handler. -/
theorem Registry.find_put_self (r : Registry) (id : Word) (h : Nat) : (r.put id h).find id = some h := by
  induction r with
  | nil => simp [Registry.put, Registry.find]
  | cons x r ih =>
    simp only [Registry.put]
    split
    · simp [Registry.find]
    · split
      · simp [Registry.find]
      · next h1 => simp [Registry.find, ih, h1]

/-- The other ids of a registry with rising ids keep their handlers. -/
theorem Registry.find_put (r : Registry) (id k : Word) (h : Nat) (hs : r.Pairwise fun x y => x.1.toNat < y.1.toNat)
    (hk : k ≠ id) : (r.put id h).find k = r.find k := by
  induction r with
  | nil => simp [Registry.put, Registry.find, Ne.symm hk]
  | cons x r ih =>
    rw [List.pairwise_cons] at hs
    simp only [Registry.put]
    split
    · simp [Registry.find, Ne.symm hk]
    · split
      · next h1 => simp [Registry.find, h1, Ne.symm hk]
      · simp [Registry.find, ih hs.2]

/-- Bytes written at `seg:off` reach memory only. -/
theorem State.writeBytes_eq (s : State) (seg off : Word) (bs : List Byte) :
    s.writeBytes seg off bs = { s with mem := (s.writeBytes seg off bs).mem } := by
  induction bs generalizing s off with
  | nil => rfl
  | cons b bs ih => exact ih (s.segWrite8 seg off b) (off + 1)

/-- R712, R831: installing a callback changes memory and the registry only. -/
theorem hostAct_installCallback (s : State) (id off : Word) (handler : Nat) :
    hostAct (.installCallback id off handler) s =
      { s with
        mem := (s.writeBytes s.params.callbackSegment off (callbackStub id)).mem
        registry := s.registry.put id handler } := by
  rw [hostAct, State.writeBytes_eq]

/-- Host actions keep what every single one keeps. -/
theorem hostActs_induct {P : State → Prop} (h : ∀ a s, P s → P (hostAct a s)) (as : List HostAction) (s : State)
    (hs : P s) : P (hostActs as s) := by
  induction as generalizing s with
  | nil => exact hs
  | cons a as ih =>
    unfold hostActs
    split
    · exact ih _ (h a s hs)
    · exact hs

end Sys2Proof.Machine
end

