-- ==== Sys2Proof/Laws/Frame.lean ====
section
/-! SUPPORT. What each shared operation leaves unchanged: registers, FLAGS bits, memory bytes (`Frame`), and the rest of the
machine (`SameSystem`). -/

namespace Sys2Proof.Machine

/-- From `s` to `t` nothing changes but the memory bytes `m`, the 8-bit registers `b`, the 16-bit registers `w`, the segment
registers `g` and the FLAGS bits `f`, and memory stays in its canonical form. -/
structure Frame (s t : State) (m : List Nat) (b : List Reg8) (w : List Reg16) (g : List SegReg) (f : List Nat) : Prop where
  mem : ∀ a, a ∉ m → t.memRead8 a = s.memRead8 a
  reg16 : ∀ r, r ∉ w → (∀ q ∈ b, Reg8.home q ≠ r) → t.reg16 r = s.reg16 r
  reg8 : ∀ q, Reg8.home q ∉ w → q ∉ b → t.reg8 q = s.reg8 q
  sreg : ∀ r, r ∉ g → t.sreg r = s.sreg r
  flags : ∀ k, k ∉ f → t.flags.getLsbD k = s.flags.getLsbD k
  wf : s.mem.wf → t.mem.wf

/-- The six status flags' bits. -/
abbrev sixBits : List Nat := [0, 2, 4, 6, 7, 11]

/-- The bytes of the word at `seg:off`. -/
def wordAt (seg off : Word) : List Nat := [phys seg off, nextPhys (phys seg off)]

theorem ne_of_mem {α : Type} {l : List α} {x y : α} (h : x ∈ l) (h' : y ∉ l) : y ≠ x := fun e => h' (e ▸ h)

/-- The byte an 8-bit operand's write stores to. -/
def opBytes8 : Operand8 → List Nat
  | .mem seg off => [phys seg off]
  | .reg _ => []
  | .imm _ => []

/-- The bytes a 16-bit operand's write stores to. -/
def opBytes16 : Operand16 → List Nat
  | .mem seg off => wordAt seg off
  | .reg _ => []
  | .imm _ => []

/-- The register an 8-bit operand's write changes. -/
def opRegs8 : Operand8 → List Reg8
  | .reg r => [r]
  | .mem _ _ => []
  | .imm _ => []

/-- The register a 16-bit operand's write changes. -/
def opRegs16 : Operand16 → List Reg16
  | .reg r => [r]
  | .mem _ _ => []
  | .imm _ => []

namespace Frame

variable {s t u : State} {m m' : List Nat} {b b' : List Reg8} {w w' : List Reg16} {g g' : List SegReg} {f f' : List Nat}

theorem of_eq (h1 : t.regs = s.regs) (h2 : t.segs = s.segs) (h3 : t.flags = s.flags) (h4 : t.mem = s.mem) :
    Frame s t m b w g f := by
  refine ⟨fun a _ => ?_, fun r _ _ => ?_, fun q _ _ => ?_, fun r _ => ?_, fun k _ => ?_, fun h => ?_⟩
  · rw [State.memRead8, h4, State.memRead8]
  · rw [State.reg16, h1, State.reg16]
  · rw [State.reg8, h1, State.reg8]
  · rw [State.sreg, h2, State.sreg]
  · rw [h3]
  · rw [h4]; exact h

theorem refl : Frame s s m b w g f := of_eq rfl rfl rfl rfl

/-- Two changes within the same bounds. -/
theorem trans (h : Frame s t m b w g f) (h' : Frame t u m b w g f) : Frame s u m b w g f :=
  ⟨fun a ha => (h'.mem a ha).trans (h.mem a ha), fun r h1 h2 => (h'.reg16 r h1 h2).trans (h.reg16 r h1 h2),
    fun q h1 h2 => (h'.reg8 q h1 h2).trans (h.reg8 q h1 h2), fun r hr => (h'.sreg r hr).trans (h.sreg r hr),
    fun k hk => (h'.flags k hk).trans (h.flags k hk), fun x => h'.wf (h.wf x)⟩

/-- Fields outside registers, FLAGS and memory do not matter. -/
theorem congr (h : Frame s t m b w g f) (h1 : u.regs = t.regs) (h2 : u.segs = t.segs) (h3 : u.flags = t.flags)
    (h4 : u.mem = t.mem) : Frame s u m b w g f := h.trans (of_eq h1 h2 h3 h4)

theorem mono (h : Frame s t m b w g f) (hm : m ⊆ m') (hb : b ⊆ b') (hw : w ⊆ w') (hg : g ⊆ g') (hf : f ⊆ f') :
    Frame s t m' b' w' g' f' :=
  ⟨fun a ha => h.mem a fun x => ha (hm x), fun r h1 h2 => h.reg16 r (fun x => h1 (hw x)) fun q hq => h2 q (hb hq),
    fun q h1 h2 => h.reg8 q (fun x => h1 (hw x)) fun x => h2 (hb x), fun r hr => h.sreg r fun x => hr (hg x),
    fun k hk => h.flags k fun x => hk (hf x), h.wf⟩

/-! The named updates. -/

theorem setReg16 (r : Reg16) (v : Word) (h : r ∈ w) : Frame s (s.setReg16 r v) m b w g f := by
  refine ⟨fun _ _ => rfl, fun q hq _ => ?_, fun q hq _ => ?_, fun _ _ => rfl, fun _ _ => rfl, id⟩
  · rw [State.reg16, State.setReg16_regs, Regs.get_set, if_neg (ne_of_mem h hq)]; rfl
  · rw [State.reg8, State.setReg16_regs, Regs.get8_set _ _ _ _ (ne_of_mem h hq)]; rfl

theorem setReg8 (r : Reg8) (v : Byte) (h : r ∈ b) : Frame s (s.setReg8 r v) m b w g f := by
  refine ⟨fun _ _ => rfl, fun q _ hq => ?_, fun q _ hq => ?_, fun _ _ => rfl, fun _ _ => rfl, id⟩
  · rw [State.reg16, State.setReg8_regs, Regs.get_set8 _ _ _ _ (Ne.symm (hq r h))]; rfl
  · rw [State.reg8, State.setReg8_regs, Regs.get8_set8, if_neg (ne_of_mem h hq)]; rfl

theorem setSreg (r : SegReg) (v : Word) (h : r ∈ g) : Frame s (s.setSreg r v) m b w g f := by
  refine ⟨fun _ _ => rfl, fun _ _ _ => rfl, fun _ _ _ => rfl, fun q hq => ?_, fun _ _ => rfl, id⟩
  rw [State.sreg, State.setSreg, Segs.get_set, if_neg (ne_of_mem h hq)]; rfl

theorem withFlags (fl : Word) (h : ∀ k, k ∉ f → fl.getLsbD k = s.flags.getLsbD k) :
    Frame s { s with flags := fl } m b w g f :=
  ⟨fun _ _ => rfl, fun _ _ _ => rfl, fun _ _ _ => rfl, fun _ _ => rfl, h, id⟩

theorem setFlag (x : Flag) (v : Bool) (h : x.bit ∈ f) : Frame s (s.setFlag x v) m b w g f :=
  withFlags _ fun k hk => by rw [getLsbD_setFlag, if_neg (ne_of_mem h hk)]

theorem drawFlags (fs : List Flag) (h : ∀ x ∈ fs, x.bit ∈ f) : Frame s (s.drawFlags fs) m b w g f :=
  congr (withFlags _ fun k hk => getLsbD_foldl_setFlag fs (drawnFlag s.draws) s.flags k fun x hx e => hk (e ▸ h x hx))
    rfl rfl rfl rfl

theorem segWrite8 (seg off : Word) (v : Byte) (h : phys seg off ∈ m) : Frame s (s.segWrite8 seg off v) m b w g f := by
  refine ⟨fun a ha => ?_, fun _ _ _ => rfl, fun _ _ _ => rfl, fun _ _ => rfl, fun _ _ => rfl,
    fun x => Memory.wf_write x _ _ (phys_lt _ _)⟩
  rw [State.segWrite8, memRead8_memWrite8, if_neg (ne_of_mem h ha)]

theorem segWrite16 (seg off : Word) (v : Word) (h : phys seg off ∈ m) (h' : nextPhys (phys seg off) ∈ m) :
    Frame s (s.segWrite16 seg off v) m b w g f := by
  refine ⟨fun a ha => ?_, fun _ _ _ => rfl, fun _ _ _ => rfl, fun _ _ => rfl, fun _ _ => rfl,
    fun x => Memory.wf_write (Memory.wf_write x _ _ (phys_lt _ _)) _ _ (nextPhys_lt _)⟩
  exact memRead8_segWrite16 s _ _ _ _ (ne_of_mem h ha) (ne_of_mem h' ha)

theorem writeOp8 (d : Operand8) (v : Byte) (hm : opBytes8 d ⊆ m) (hb : opRegs8 d ⊆ b) :
    Frame s (s.writeOp8 v d) m b w g f := by
  cases d with
  | reg r => exact setReg8 r v (hb (by simp [opRegs8]))
  | mem seg off => exact segWrite8 seg off v (hm (by simp [opBytes8]))
  | imm _ => exact refl

theorem writeOp16 (d : Operand16) (v : Word) (hm : opBytes16 d ⊆ m) (hw : opRegs16 d ⊆ w) :
    Frame s (s.writeOp16 v d) m b w g f := by
  cases d with
  | reg r => exact setReg16 r v (hw (by simp [opRegs16]))
  | mem seg off => exact segWrite16 seg off v (hm (by simp [opBytes16, wordAt])) (hm (by simp [opBytes16, wordAt]))
  | imm _ => exact refl

/-! The shared operations of the meanings. -/

theorem push16 (v : Word) (h : phys s.segs.ss (s.regs.sp - 2) ∈ m) (h' : nextPhys (phys s.segs.ss (s.regs.sp - 2)) ∈ m)
    (hw : .sp ∈ w) : Frame s (s.push16 v) m b w g f :=
  (setReg16 .sp _ hw).trans (segWrite16 _ _ v h h')

theorem drop16 (hw : .sp ∈ w) : Frame s s.drop16 m b w g f := setReg16 .sp _ hw

theorem compute {n : Nat} (op : AluOp) (d v : BitVec n) (fl : Word) (k : Nat) (hk : k ∉ sixBits) :
    (op.compute d v fl).2.getLsbD k = fl.getLsbD k := by
  simp only [List.mem_cons, List.not_mem_nil, or_false, not_or] at hk
  cases op <;> simp [AluOp.compute, getLsbD_addFlags, getLsbD_subFlags, getLsbD_logicFlags, hk]

theorem alu8 (op : AluOp) (d v : Operand8) (hm : op.writes = true → opBytes8 d ⊆ m)
    (hb : op.writes = true → opRegs8 d ⊆ b) (hf : sixBits ⊆ f) : Frame s (alu8 op d v s) m b w g f := by
  have h1 : Frame s { s with flags := (op.compute (s.readOp8 d) (s.readOp8 v) s.flags).2 } m b w g f :=
    withFlags _ fun k hk => compute op _ _ _ k fun x => hk (hf x)
  unfold Machine.alu8
  dsimp only
  split
  · next h => exact h1.trans (writeOp8 d _ (hm h) (hb h))
  · exact h1

theorem alu16 (op : AluOp) (d v : Operand16) (hm : op.writes = true → opBytes16 d ⊆ m)
    (hw : op.writes = true → opRegs16 d ⊆ w) (hf : sixBits ⊆ f) : Frame s (alu16 op d v s) m b w g f := by
  have h1 : Frame s { s with flags := (op.compute (s.readOp16 d) (s.readOp16 v) s.flags).2 } m b w g f :=
    withFlags _ fun k hk => compute op _ _ _ k fun x => hk (hf x)
  unfold Machine.alu16
  dsimp only
  split
  · next h => exact h1.trans (writeOp16 d _ (hm h) (hw h))
  · exact h1

theorem unary8 (F : Byte → Word → Byte × Word) (d : Operand8) (hm : opBytes8 d ⊆ m) (hb : opRegs8 d ⊆ b)
    (hf : ∀ v fl k, k ∉ f → (F v fl).2.getLsbD k = fl.getLsbD k) : Frame s (unary8 F d s) m b w g f :=
  (withFlags _ fun k hk => hf _ _ k hk).trans (writeOp8 d _ hm hb)

theorem unary16 (F : Word → Word → Word × Word) (d : Operand16) (hm : opBytes16 d ⊆ m) (hw : opRegs16 d ⊆ w)
    (hf : ∀ v fl k, k ∉ f → (F v fl).2.getLsbD k = fl.getLsbD k) : Frame s (unary16 F d s) m b w g f :=
  (withFlags _ fun k hk => hf _ _ k hk).trans (writeOp16 d _ hm hw)

theorem incFlags_bits {n : Nat} (v : BitVec n) (fl : Word) (k : Nat) (hk : k ∉ [2, 4, 6, 7, 11]) :
    (incFlags v fl).2.getLsbD k = fl.getLsbD k := by
  simp only [List.mem_cons, List.not_mem_nil, or_false, not_or] at hk
  rw [incFlags, getLsbD_setFlag_cf]
  split
  · next h => rw [h]; rfl
  · next h => simp [getLsbD_addFlags, hk, h]

theorem decFlags_bits {n : Nat} (v : BitVec n) (fl : Word) (k : Nat) (hk : k ∉ [2, 4, 6, 7, 11]) :
    (decFlags v fl).2.getLsbD k = fl.getLsbD k := by
  simp only [List.mem_cons, List.not_mem_nil, or_false, not_or] at hk
  rw [decFlags, getLsbD_setFlag_cf]
  split
  · next h => rw [h]; rfl
  · next h => simp [getLsbD_subFlags, hk, h]

theorem negFlags_bits {n : Nat} (v : BitVec n) (fl : Word) (k : Nat) (hk : k ∉ sixBits) :
    (negFlags v fl).2.getLsbD k = fl.getLsbD k := by
  simp only [List.mem_cons, List.not_mem_nil, or_false, not_or] at hk
  simp [negFlags, getLsbD_subFlags, hk]

theorem logicFlags_bits {n : Nat} (v : BitVec n) (fl : Word) (k : Nat) (hk : k ∉ sixBits) :
    (logicFlags v fl).getLsbD k = fl.getLsbD k := by
  simp only [List.mem_cons, List.not_mem_nil, or_false, not_or] at hk
  simp [getLsbD_logicFlags, hk]

theorem szp_bits {n : Nat} (v : BitVec n) (fl : Word) (k : Nat) (hk : k ∉ sixBits) :
    (szp v fl).getLsbD k = fl.getLsbD k := by
  simp only [List.mem_cons, List.not_mem_nil, or_false, not_or] at hk
  simp [getLsbD_szp, hk]

theorem flagsAfter_bits {n : Nat} (op : ShiftOp) (c : Nat) (v0 v : BitVec n) (cf : Bool) (draw : Flag → Bool) (fl : Word)
    (k : Nat) (hk : k ∉ if op.isShift then sixBits else [0, 11]) :
    (op.flagsAfter c v0 v cf draw fl).getLsbD k = fl.getLsbD k := by
  rw [getLsbD_flagsAfter]
  split at hk <;> simp only [List.mem_cons, List.not_mem_nil, or_false, not_or] at hk
  · simp [hk]
  · next h => simp [hk, h]

theorem shift8 (op : ShiftOp) (k : Nat) (d : Operand8) (hm : k ≠ 0 → opBytes8 d ⊆ m) (hb : opRegs8 d ⊆ b)
    (hf : (if op.isShift then sixBits else [0, 11]) ⊆ f) : Frame s (shift8 op k d s) m b w g f := by
  unfold Machine.shift8
  dsimp only
  split
  · exact refl
  · next h =>
    refine trans ?_ (writeOp8 d _ (hm h) hb)
    exact congr (withFlags _ fun j hj => flagsAfter_bits op k (s.readOp8 d) _ _ _ _ j fun x => hj (hf x)) rfl rfl rfl rfl

theorem shift16 (op : ShiftOp) (k : Nat) (d : Operand16) (hm : k ≠ 0 → opBytes16 d ⊆ m) (hw : opRegs16 d ⊆ w)
    (hf : (if op.isShift then sixBits else [0, 11]) ⊆ f) : Frame s (shift16 op k d s) m b w g f := by
  unfold Machine.shift16
  dsimp only
  split
  · exact refl
  · next h =>
    refine trans ?_ (writeOp16 d _ (hm h) hw)
    exact congr (withFlags _ fun j hj => flagsAfter_bits op k (s.readOp16 d) _ _ _ _ j fun x => hj (hf x)) rfl rfl rfl rfl

theorem mulFlags (v : Bool) (hf : sixBits ⊆ f) : Frame s (mulFlags v s) m b w g f :=
  ((setFlag .cf v (hf (by decide))).trans (setFlag .ovf v (hf (by decide)))).trans
    (drawFlags _ fun x hx => hf (by revert x; decide))


theorem interruptCall (v : Byte) (h2 : wordAt s.segs.ss (s.regs.sp - 2) ⊆ m) (h4 : wordAt s.segs.ss (s.regs.sp - 4) ⊆ m)
    (h6 : wordAt s.segs.ss (s.regs.sp - 6) ⊆ m) (hw : .sp ∈ w) (hg : .cs ∈ g) (hf : [8, 9] ⊆ f) :
    Frame s (interruptCall v s) m b w g f := by
  have p1 : Frame s (s.push16 s.flags) m b w g f := push16 _ (h2 (by simp [wordAt])) (h2 (by simp [wordAt])) hw
  have p2 : Frame (s.push16 s.flags) ((s.push16 s.flags).push16 s.segs.cs) m b w g f := by
    apply push16 _ _ _ hw <;> rw [State.push16_eq] <;> rw [← sub_two_sub_two] at h4 <;> apply h4 <;> simp [wordAt]
  have p3 : Frame ((s.push16 s.flags).push16 s.segs.cs) (((s.push16 s.flags).push16 s.segs.cs).push16 s.ip) m b w g f := by
    apply push16 _ _ _ hw <;> rw [State.push16_eq, State.push16_eq] <;>
      rw [← sub_four_sub_two, ← sub_two_sub_two] at h6 <;> apply h6 <;> simp [wordAt]
  have p := (p1.trans p2).trans p3
  have hcs : Frame s (s.setSreg .cs (s.memRead16 (4 * v.toNat + 2))) m b w g f := setSreg .cs _ hg
  refine ⟨p.mem, p.reg16, p.reg8, fun r hr => hcs.sreg r hr, fun k hk => ?_, p.wf⟩
  show (Machine.setFlag (Machine.setFlag s.flags .ie false) .tf false).getLsbD k = _
  rw [getLsbD_setFlag_tf, getLsbD_setFlag_ie, if_neg (fun e => hk (hf (by simp [e]))),
    if_neg (fun e => hk (hf (by simp [e])))]

theorem statusDraw (hf : sixBits ⊆ f) : Frame s (s.drawFlags statusFlags) m b w g f :=
  drawFlags _ fun x hx => hf (by revert x; decide)

/-- The two outcomes of a division: the divide error's interrupt-call, or quotient and remainder. -/
theorem divideError (h2 : wordAt s.segs.ss (s.regs.sp - 2) ⊆ m) (h4 : wordAt s.segs.ss (s.regs.sp - 4) ⊆ m)
    (h6 : wordAt s.segs.ss (s.regs.sp - 6) ⊆ m) (hw : .sp ∈ w) (hg : .cs ∈ g) (hf : sixBits ++ [8, 9] ⊆ f) :
    Frame s (divideError (s.drawFlags statusFlags)) m b w g f :=
  (statusDraw fun _ hk => hf (List.mem_append_left _ hk)).trans
    (interruptCall 0 h2 h4 h6 hw hg fun _ hk => hf (List.mem_append_right _ hk))

theorem asciiAdjust (v : Bool) (hb : [.al, .ah] ⊆ b) (hf : sixBits ⊆ f) : Frame s (asciiAdjust v s) m b w g f := by
  refine trans (trans (trans (trans (setReg8 .al _ ?_) (setReg8 .ah _ ?_)) (setFlag .af _ ?_)) (setFlag .cf _ ?_))
    (drawFlags _ ?_)
  · exact hb (by simp)
  · exact hb (by simp)
  · exact hf (by decide)
  · exact hf (by decide)
  · intro x hx; exact hf (by revert x; decide)

theorem decimalFlags (v : Byte) (hf : sixBits ⊆ f) : Frame s (decimalFlags v s) m b w g f :=
  (withFlags _ fun k hk => szp_bits v _ k fun x => hk (hf x)).trans
    (drawFlags _ fun x hx => hf (by revert x; decide))

theorem daa (hb : [.al] ⊆ b) (hf : sixBits ⊆ f) : Frame s (daa s) m b w g f :=
  (((setReg8 .al _ (hb (by simp))).trans (setFlag .cf _ (hf (by decide)))).trans (setFlag .af _ (hf (by decide)))).trans
    (decimalFlags _ hf)

theorem das (hb : [.al] ⊆ b) (hf : sixBits ⊆ f) : Frame s (das s) m b w g f :=
  (((setReg8 .al _ (hb (by simp))).trans (setFlag .cf _ (hf (by decide)))).trans (setFlag .af _ (hf (by decide)))).trans
    (decimalFlags _ hf)

theorem jumpFar (off seg : Word) (hg : .cs ∈ g) : Frame s (jumpFar off seg s) m b w g f :=
  congr (setSreg .cs seg hg) rfl rfl rfl rfl

theorem callTo (x : Word) (h2 : wordAt s.segs.ss (s.regs.sp - 2) ⊆ m) (hw : .sp ∈ w) : Frame s (callTo x s) m b w g f :=
  congr (push16 s.ip (h2 (by simp [wordAt])) (h2 (by simp [wordAt])) hw) rfl rfl rfl rfl

theorem callFar (off seg : Word) (h2 : wordAt s.segs.ss (s.regs.sp - 2) ⊆ m) (h4 : wordAt s.segs.ss (s.regs.sp - 4) ⊆ m)
    (hw : .sp ∈ w) (hg : .cs ∈ g) : Frame s (callFar off seg s) m b w g f := by
  have p1 : Frame s (s.push16 s.segs.cs) m b w g f := push16 _ (h2 (by simp [wordAt])) (h2 (by simp [wordAt])) hw
  have p2 : Frame (s.push16 s.segs.cs) ((s.push16 s.segs.cs).push16 s.ip) m b w g f := by
    apply push16 _ _ _ hw <;> rw [State.push16_eq] <;> rw [← sub_two_sub_two] at h4 <;> apply h4 <;> simp [wordAt]
  exact (p1.trans p2).trans (jumpFar off seg hg)

theorem retNear (hw : .sp ∈ w) : Frame s (retNear s) m b w g f := congr (drop16 hw) rfl rfl rfl rfl

theorem retFar (hw : .sp ∈ w) (hg : .cs ∈ g) : Frame s (retFar s) m b w g f :=
  (retNear hw).trans ((drop16 hw).trans (setSreg .cs _ hg))

theorem jumpIf (cc : Nat) (v : Byte) : Frame s (jumpIf cc v s) m b w g f := by
  unfold Machine.jumpIf; split <;> exact of_eq rfl rfl rfl rfl

theorem loopIf (x : Bool) (v : Byte) (hw : .cx ∈ w) : Frame s (loopIf x v s) m b w g f := by
  have h := setReg16 (s := s) (m := m) (b := b) (g := g) (f := f) .cx (s.regs.cx - 1) hw
  unfold Machine.loopIf
  dsimp only
  split
  · exact congr h rfl rfl rfl rfl
  · exact h

theorem inAl (p : Word) (hb : [.al] ⊆ b) : Frame s (inAl p s) m b w g f := by
  refine trans (t := ioReadState p s) ?_ (setReg8 .al _ (hb (by simp)))
  unfold ioReadState; split <;> exact of_eq rfl rfl rfl rfl

theorem inAx (p : Word) (hb : [.al, .ah] ⊆ b) : Frame s (inAx p s) m b w g f := by
  refine trans (inAl p (List.Subset.trans (by simp) hb)) ?_
  refine trans (t := ioReadState (p + 1) (Machine.inAl p s)) ?_ (setReg8 .ah _ (hb (by simp)))
  unfold ioReadState; split <;> exact of_eq rfl rfl rfl rfl

theorem ioWrite (p : Word) (v : Byte) : Frame s (ioWrite p v s) m b w g f := by
  unfold Machine.ioWrite; split <;> exact of_eq rfl rfl rfl rfl

/-- A repeated instruction changes what its iteration changes, and CX where it repeats; nothing where it skips. -/
theorem stringStep (z : Bool) (body : State → State) (h : (s.tr.rep.isSome && s.regs.cx == 0) = false →
    Frame s (body s) m b w g f) (hw : s.tr.rep.isSome = true → s.regs.cx ≠ 0 → .cx ∈ w) :
    Frame s (stringStep z body s) m b w g f := by
  unfold Machine.stringStep
  split
  · next hr => exact h (by simp [hr])
  · next r hr =>
    split
    · exact refl
    · next hc =>
      have h1 := (h (by rw [hr]; simpa using hc)).trans
        (setReg16 .cx ((body s).regs.cx - 1) (hw (by simp [hr]) hc))
      dsimp only
      split
      · exact congr h1 rfl rfl rfl rfl
      · exact h1

theorem stepSi (n : Word) (hw : .si ∈ w) : Frame s (stepSi n s) m b w g f := setReg16 .si _ hw

theorem stepDi (n : Word) (hw : .di ∈ w) : Frame s (stepDi n s) m b w g f := setReg16 .di _ hw

theorem subFlags_with {n : Nat} (x y : BitVec n) (hf : sixBits ⊆ f) :
    Frame s { s with flags := (subFlags x y false s.flags).2 } m b w g f :=
  withFlags _ fun k hk => compute .cmp x y s.flags k fun h => hk (hf h)

end Frame

/-- The machine outside registers, FLAGS, memory, IP, the decode-transient state and the draw number is unchanged. -/
structure SameSystem (s t : State) : Prop where
  nmiPending : t.nmiPending = s.nmiPending
  intrPending : t.intrPending = s.intrPending
  intrVector : t.intrVector = s.intrVector
  intDelay : t.intDelay = s.intDelay
  halted : t.halted = s.halted
  trapPending : t.trapPending = s.trapPending
  status : t.status = s.status
  pit : t.pit = s.pit
  registry : t.registry = s.registry
  params : t.params = s.params
  sched : t.sched = s.sched
  mcbResult : t.mcbResult = s.mcbResult

namespace SameSystem

variable {s t u : State}

theorem refl (s : State) : SameSystem s s := ⟨rfl, rfl, rfl, rfl, rfl, rfl, rfl, rfl, rfl, rfl, rfl, rfl⟩

theorem trans (h : SameSystem s t) (h' : SameSystem t u) : SameSystem s u :=
  ⟨h'.1.trans h.1, h'.2.trans h.2, h'.3.trans h.3, h'.4.trans h.4, h'.5.trans h.5, h'.6.trans h.6, h'.7.trans h.7,
    h'.8.trans h.8, h'.9.trans h.9, h'.10.trans h.10, h'.11.trans h.11, h'.12.trans h.12⟩

/-- An update of registers, segment registers, IP, FLAGS, memory, the decode-transient state and the draw number. -/
theorem of_core (s : State) (r : Regs) (g : Segs) (ip fl : Word) (m : Memory) (tr : Transient) (n : Nat) :
    SameSystem s { s with regs := r, segs := g, ip := ip, flags := fl, mem := m, tr := tr, draws := n } :=
  ⟨rfl, rfl, rfl, rfl, rfl, rfl, rfl, rfl, rfl, rfl, rfl, rfl⟩

theorem writeOp8 (s : State) (v : Byte) (d : Operand8) : SameSystem s (s.writeOp8 v d) := by
  cases d <;> exact ⟨rfl, rfl, rfl, rfl, rfl, rfl, rfl, rfl, rfl, rfl, rfl, rfl⟩

theorem writeOp16 (s : State) (v : Word) (d : Operand16) : SameSystem s (s.writeOp16 v d) := by
  cases d <;> exact ⟨rfl, rfl, rfl, rfl, rfl, rfl, rfl, rfl, rfl, rfl, rfl, rfl⟩

theorem interruptCall (v : Byte) (s : State) : SameSystem s (interruptCall v s) := by
  rw [interruptCall_eq]; exact of_core s _ _ _ _ _ _ _

theorem alu8 (op : AluOp) (d v : Operand8) (s : State) : SameSystem s (alu8 op d v s) := by
  unfold Machine.alu8
  dsimp only
  split
  · exact trans (of_core s s.regs s.segs s.ip _ s.mem s.tr s.draws) (writeOp8 _ _ _)
  · exact of_core s s.regs s.segs s.ip _ s.mem s.tr s.draws

theorem alu16 (op : AluOp) (d v : Operand16) (s : State) : SameSystem s (alu16 op d v s) := by
  unfold Machine.alu16
  dsimp only
  split
  · exact trans (of_core s s.regs s.segs s.ip _ s.mem s.tr s.draws) (writeOp16 _ _ _)
  · exact of_core s s.regs s.segs s.ip _ s.mem s.tr s.draws

theorem unary8 (F : Byte → Word → Byte × Word) (d : Operand8) (s : State) : SameSystem s (unary8 F d s) :=
  trans (of_core s s.regs s.segs s.ip _ s.mem s.tr s.draws) (writeOp8 _ _ _)

theorem unary16 (F : Word → Word → Word × Word) (d : Operand16) (s : State) : SameSystem s (unary16 F d s) :=
  trans (of_core s s.regs s.segs s.ip _ s.mem s.tr s.draws) (writeOp16 _ _ _)

theorem shift8 (op : ShiftOp) (k : Nat) (d : Operand8) (s : State) : SameSystem s (shift8 op k d s) := by
  unfold Machine.shift8
  dsimp only
  split
  · exact refl s
  · exact trans (of_core s s.regs s.segs s.ip _ s.mem s.tr (s.draws + 1)) (writeOp8 _ _ _)

theorem shift16 (op : ShiftOp) (k : Nat) (d : Operand16) (s : State) : SameSystem s (shift16 op k d s) := by
  unfold Machine.shift16
  dsimp only
  split
  · exact refl s
  · exact trans (of_core s s.regs s.segs s.ip _ s.mem s.tr (s.draws + 1)) (writeOp16 _ _ _)

theorem divideError (s : State) (fs : List Flag) : SameSystem s (divideError (s.drawFlags fs)) :=
  trans (of_core s s.regs s.segs s.ip _ s.mem s.tr (s.draws + 1)) (interruptCall 0 _)

theorem div8 (v : Byte) (s : State) : SameSystem s (div8 v s) := by
  unfold Machine.div8
  dsimp only
  split
  · exact divideError s _
  · exact of_core s _ s.segs s.ip _ s.mem s.tr (s.draws + 1)

theorem div16 (v : Word) (s : State) : SameSystem s (div16 v s) := by
  unfold Machine.div16
  dsimp only
  split
  · exact divideError s _
  · exact of_core s _ s.segs s.ip _ s.mem s.tr (s.draws + 1)

theorem idiv8 (v : Byte) (s : State) : SameSystem s (idiv8 v s) := by
  unfold Machine.idiv8
  dsimp only
  split
  · exact divideError s _
  · exact of_core s _ s.segs s.ip _ s.mem s.tr (s.draws + 1)

theorem idiv16 (v : Word) (s : State) : SameSystem s (idiv16 v s) := by
  unfold Machine.idiv16
  dsimp only
  split
  · exact divideError s _
  · exact of_core s _ s.segs s.ip _ s.mem s.tr (s.draws + 1)

theorem aam (v : Byte) (s : State) : SameSystem s (aam v s) := by
  unfold Machine.aam
  split
  · exact divideError s _
  · exact of_core s _ s.segs s.ip _ s.mem s.tr (s.draws + 1)

theorem pushRm (e : RM16) (s : State) : SameSystem s (pushRm e s) := by
  unfold Machine.pushRm
  split <;> exact of_core s _ s.segs s.ip s.flags _ s.tr s.draws

theorem jumpIf (cc : Nat) (v : Byte) (s : State) : SameSystem s (jumpIf cc v s) := by
  unfold Machine.jumpIf
  split
  · exact of_core s s.regs s.segs _ s.flags s.mem s.tr s.draws
  · exact refl s

theorem loopIf (x : Bool) (v : Byte) (s : State) : SameSystem s (loopIf x v s) := by
  unfold Machine.loopIf
  dsimp only
  split
  · exact of_core s _ s.segs _ s.flags s.mem s.tr s.draws
  · exact of_core s _ s.segs s.ip s.flags s.mem s.tr s.draws

theorem stringStep (z : Bool) (body : State → State) (s : State) (h : SameSystem s (body s)) :
    SameSystem s (stringStep z body s) := by
  unfold Machine.stringStep
  split
  · exact h
  · split
    · exact refl s
    · dsimp only
      split
      · exact h.trans (of_core _ _ _ _ (body s).flags (body s).mem (body s).tr (body s).draws)
      · exact h.trans (of_core _ _ _ (body s).ip (body s).flags (body s).mem (body s).tr (body s).draws)

end SameSystem

/-! ### The decode-transient state (R71): only the interrupt-call notes itself there -/

section Transient

variable (s : State)

@[simp] theorem writeOp8_tr (v : Byte) (d : Operand8) : (s.writeOp8 v d).tr = s.tr := by cases d <;> rfl

@[simp] theorem writeOp16_tr (v : Word) (d : Operand16) : (s.writeOp16 v d).tr = s.tr := by cases d <;> rfl

@[simp] theorem alu8_tr (op : AluOp) (d v : Operand8) : (alu8 op d v s).tr = s.tr := by
  unfold alu8; dsimp only; split <;> simp

@[simp] theorem alu16_tr (op : AluOp) (d v : Operand16) : (alu16 op d v s).tr = s.tr := by
  unfold alu16; dsimp only; split <;> simp

@[simp] theorem unary8_tr (F : Byte → Word → Byte × Word) (d : Operand8) : (unary8 F d s).tr = s.tr := by simp [unary8]

@[simp] theorem unary16_tr (F : Word → Word → Word × Word) (d : Operand16) : (unary16 F d s).tr = s.tr := by simp [unary16]

@[simp] theorem shift8_tr (op : ShiftOp) (k : Nat) (d : Operand8) : (shift8 op k d s).tr = s.tr := by
  unfold shift8; dsimp only; split <;> simp

@[simp] theorem shift16_tr (op : ShiftOp) (k : Nat) (d : Operand16) : (shift16 op k d s).tr = s.tr := by
  unfold shift16; dsimp only; split <;> simp

@[simp] theorem pushRm_tr (e : RM16) : (pushRm e s).tr = s.tr := by unfold pushRm; split <;> rfl

@[simp] theorem jumpIf_tr (cc : Nat) (v : Byte) : (jumpIf cc v s).tr = s.tr := by unfold jumpIf; split <;> rfl

@[simp] theorem loopIf_tr (x : Bool) (v : Byte) : (loopIf x v s).tr = s.tr := by
  unfold loopIf; dsimp only; split <;> rfl

theorem stringStep_tr (z : Bool) (body : State → State) (h : (body s).tr = s.tr) : (stringStep z body s).tr = s.tr := by
  unfold stringStep
  split
  · exact h
  · split
    · rfl
    · dsimp only; split <;> exact h

@[simp] theorem ioReadState_tr (p : Word) : (ioReadState p s).tr = s.tr := by unfold ioReadState; split <;> rfl

@[simp] theorem ioWrite_tr (p : Word) (v : Byte) : (ioWrite p v s).tr = s.tr := by unfold ioWrite; split <;> rfl

@[simp] theorem inAl_tr (p : Word) : (inAl p s).tr = s.tr := ioReadState_tr s p

@[simp] theorem inAx_tr (p : Word) : (inAx p s).tr = s.tr := (ioReadState_tr (inAl p s) (p + 1)).trans (inAl_tr s p)

@[simp] theorem outAl_tr (p : Word) : (outAl p s).tr = s.tr := ioWrite_tr s p _

@[simp] theorem outAx_tr (p : Word) : (outAx p s).tr = s.tr := (ioWrite_tr _ _ _).trans (ioWrite_tr _ _ _)

@[simp] theorem xchg8_tr (d v : Operand8) : (xchg8 d v s).tr = s.tr := by simp [xchg8]

@[simp] theorem xchg16_tr (d v : Operand16) : (xchg16 d v s).tr = s.tr := by simp [xchg16]

@[simp] theorem interruptCall_tr (v : Byte) : (interruptCall v s).tr = { s.tr with calledInt := true } := rfl

@[simp] theorem div8_tr (v : Byte) : (div8 v s).tr =
    { s.tr with calledInt := s.tr.calledInt || decide (v = 0 ∨ 255 < s.regs.ax.toNat / v.toNat) } := by
  unfold div8; dsimp only; split
  · next h => simp only [h, decide_true, Bool.or_true]; rfl
  · next h => simp only [h, decide_false, Bool.or_false]; rfl

@[simp] theorem div16_tr (v : Word) : (div16 v s).tr =
    { s.tr with calledInt := s.tr.calledInt || decide (v = 0 ∨ 65535 < (s.regs.dx.toNat * 65536 + s.regs.ax.toNat) / v.toNat) } := by
  unfold div16; dsimp only; split
  · next h => simp only [h, decide_true, Bool.or_true]; rfl
  · next h => simp only [h, decide_false, Bool.or_false]; rfl

@[simp] theorem idiv8_tr (v : Byte) : (idiv8 v s).tr =
    { s.tr with calledInt := s.tr.calledInt || decide (v = 0 ∨ 127 < s.regs.ax.toInt.tdiv v.toInt ∨ s.regs.ax.toInt.tdiv v.toInt < idivLow s 8) } := by
  unfold idiv8; dsimp only; split
  · next h => simp only [h, decide_true, Bool.or_true]; rfl
  · next h => simp only [h, decide_false, Bool.or_false]; rfl

@[simp] theorem idiv16_tr (v : Word) : (idiv16 v s).tr =
    { s.tr with calledInt := s.tr.calledInt || decide (v = 0 ∨ 32767 < (s.regs.dx ++ s.regs.ax).toInt.tdiv v.toInt ∨
      (s.regs.dx ++ s.regs.ax).toInt.tdiv v.toInt < idivLow s 16) } := by
  unfold idiv16; dsimp only; split
  · next h => simp only [h, decide_true, Bool.or_true]; rfl
  · next h => simp only [h, decide_false, Bool.or_false]; rfl

@[simp] theorem aam_tr (v : Byte) : (aam v s).tr =
    { s.tr with calledInt := s.tr.calledInt || decide (v = 0) } := by
  unfold aam; split
  · next h => simp only [h, decide_true, Bool.or_true]; rfl
  · next h => simp only [h, decide_false, Bool.or_false]; rfl

end Transient

end Sys2Proof.Machine
end

