-- ==== Sys2Proof/Laws/Safety.lean ====
section
/-! SUPPORT. Ends of a run: a quiescent halt is changed by a host action only, and what every launch state has in common. -/

namespace Sys2Proof.Safety

open Sys2Proof.Machine

/-- R906: the CPU's step leaves a quiescent halt as it is, but for the delay flag, with no single-step trap to take
(notes/assumptions/16.md). -/
theorem QuiescentHalt.cpuStep {s : State} (h : QuiescentHalt s) (ht : (s.params.singleStep && s.trapPending) = false) :
    Machine.cpuStep s = .next { s with intDelay := false } := by
  obtain ⟨-, hh, hn, hi, -⟩ := h
  unfold Machine.cpuStep
  have h2 : (s.intrPending && !s.intDelay && s.flag .ie) = false := by
    unfold intrDeliverable at hi
    rw [Bool.and_right_comm, hi, Bool.false_and]
  rw [hn, h2, ht, hh]
  rfl

/-- R906: PIT cycles leave a quiescent halt quiescent: a count that expires raises an INTR that IF = 0 holds off. -/
theorem QuiescentHalt.runPit {s : State} (h : QuiescentHalt s) (n : Nat) : QuiescentHalt (Machine.runPit n s) := by
  obtain ⟨hs, hh, hn, hi, ht⟩ := h
  unfold timerCanWake at ht
  have ha : (s.pit.c0.runCycles n).active = s.pit.c0.active := by
    unfold Channel.runCycles; split <;> try split
    all_goals rfl
  unfold Machine.runPit
  cases hf : s.pit.c0.fires n with
  | false => exact ⟨hs, hh, hn, hi, by unfold timerCanWake; exact (congrArg (· && _) ha).trans ht⟩
  | true =>
    have hc : s.pit.c0.active = true := by
      unfold Channel.fires at hf; exact (Bool.and_eq_true_iff.1 hf).1
    have he : s.flag .ie = false := by rw [hc, Bool.true_and] at ht; exact ht
    refine ⟨hs, hh, hn, ?_, ?_⟩
    · unfold intrDeliverable; exact (congrArg (true && ·) he).trans rfl
    · unfold timerCanWake; exact (congrArg (· && _) ha).trans ht

/-- The host's port writes before launch reach the PIT only. -/
theorem bootWrites_eq (ws : List (Word × Byte)) (s : State) : bootWrites ws s = { s with pit := (bootWrites ws s).pit } := by
  induction ws generalizing s with
  | nil => rfl
  | cons w ws ih =>
    have h : ioWrite w.1 w.2 s = { s with pit := (ioWrite w.1 w.2 s).pit } := by unfold ioWrite; split <;> rfl
    have e : bootWrites (w :: ws) s = bootWrites ws (ioWrite w.1 w.2 s) := rfl
    rw [e, ih (ioWrite w.1 w.2 s)]
    exact congrArg (fun t : State => { t with pit := (bootWrites ws (ioWrite w.1 w.2 s)).pit }) h

/-- A run of one turn is that turn. -/
theorem perform_singleton {t : Turn} {s u : State} : perform [t] s = some u ↔ move t s = .next u := by
  unfold perform
  split
  · next h => rw [h, perform, Option.some.injEq, Host.Outcome.next.injEq]
  all_goals next h => rw [h]; exact ⟨nofun, nofun⟩

/-- R78: what every launch state has in common. -/
theorem Launched.fields {s : State} (h : Launched s) :
    s.nmiPending = false ∧ s.intrPending = false ∧ s.intDelay = false ∧ s.halted = false ∧ s.trapPending = false ∧
      s.status = .running ∧ s.tr = .none ∧ s.sched = [] ∧ Memory.wf s.mem := by
  obtain ⟨l, p, r, ws, v, n, hm, rfl⟩ := h
  rw [bootWrites_eq]
  exact ⟨rfl, rfl, rfl, rfl, rfl, rfl, rfl, rfl, hm⟩

/-- The state of `State.reset` is a launch state. -/
theorem launched_reset : Launched State.reset :=
  ⟨Launch.conventions, Params.defaults, [], [], 0, 0, ⟨List.Pairwise.nil, nofun⟩, rfl⟩

end Sys2Proof.Safety
end

