-- ==== Sys2Proof/Laws/Step.lean ====
section
/-! SUPPORT. The step: the fetched bytes always hold an instruction, every instruction completes, and one turn of the prefix
loop. -/

namespace Sys2Proof.Laws

open Sys2Proof.Machine

theorem codeBytes_length (s : State) (k : Nat) (off : Word) : (codeBytes s k off).length = k := by
  induction k generalizing off with
  | zero => rfl
  | succ k ih => rw [codeBytes, List.length_cons, ih]

/-- The bytes a step fetches hold a whole instruction: `truncatedFetch` is never raised. -/
theorem decode_codeBytes (s : State) : ∃ i rest, decode (fetched s) = .ok (i, rest) :=
  decode_total (by rw [fetched, codeBytes_length]; exact Nat.le_refl _)

/-- No instruction faults or is refused. -/
theorem exec_next (i : Instr) (s : State) : ∃ t, exec i s = .next t := by
  cases i <;> exact ⟨_, rfl⟩

/-- A prefix: the loop goes on. -/
theorem runFrom_prefix {n : Nat} {s t : State} {i : Instr} {rest : List Byte} (hd : decode (fetched s) = .ok (i, rest))
    (hp : i.isPrefix = true) (ht : exec i (advance rest s) = .next t) : runFrom (n + 1) s = runFrom n t := by
  rw [runFrom, hd]
  dsimp only
  rw [ht]
  dsimp only
  rw [if_pos hp]

/-- Any other instruction: the step ends. -/
theorem runFrom_last {n : Nat} {s t : State} {i : Instr} {rest : List Byte} (hd : decode (fetched s) = .ok (i, rest))
    (hp : i.isPrefix = false) (ht : exec i (advance rest s) = .next t) : runFrom (n + 1) s = .next (finish t) := by
  rw [runFrom, hd]
  dsimp only
  rw [ht]
  dsimp only
  rw [if_neg (by rw [hp]; exact Bool.false_ne_true)]

/-- What holds of the machine at the end of every possible run of the prefix loop holds of its outcome. -/
theorem runFrom_induct {P : State → State → Prop} (hang : ∀ s, P s (prefixHang s))
    (last : ∀ s i rest t, decode (fetched s) = .ok (i, rest) → i.isPrefix = false → exec i (advance rest s) = .next t →
      P s (finish t))
    (more : ∀ s i rest t u, decode (fetched s) = .ok (i, rest) → i.isPrefix = true → exec i (advance rest s) = .next t →
      P t u → P s u) (n : Nat) (s : State) : ∃ u, runFrom n s = .next u ∧ P s u := by
  induction n generalizing s with
  | zero => exact ⟨_, rfl, hang s⟩
  | succ n ih =>
    obtain ⟨i, rest, hd⟩ := decode_codeBytes s
    obtain ⟨t, ht⟩ := exec_next i (advance rest s)
    by_cases hp : i.isPrefix = true
    · obtain ⟨u, hu, hP⟩ := ih t
      exact ⟨u, (runFrom_prefix hd hp ht).trans hu, more s i rest t u hd hp ht hP⟩
    · have hp : i.isPrefix = false := by simpa using hp
      exact ⟨_, runFrom_last hd hp ht, last s i rest t hd hp ht⟩

end Sys2Proof.Laws
end

