-- ==== Sys2Proof/Tests/Slice0.lean ====
section
/-! SUPPORT. Tests: ill-formed terms, the decoding of a word written out from spec/30_encoding.md and spec/opcode_table.json for
every constructor, single steps whose expected results are rows of spec/95_test_vectors.md, and for every statement a state
and operands that meet its hypotheses. -/

namespace Sys2Proof.Tests

-- one theorem after another: the many small evaluations of this file would otherwise open a thread each
set_option Elab.async false

open Sys2Proof.Machine Sys2Proof.Spec

/-! ### Ill-formed terms (one per check of Sys2Proof/WellFormed.lean) -/

/-- R206: BP alone without a displacement. -/
theorem test_wf_base_bp : (Instr.addEbGb (.mem (.base .bp)) .al).wf = false ∧ (Instr.leaGvM (.base .bp) .ax).wf = false ∧
    (Instr.incEv (.mem (.base .bp))).wf = false := by decide

/-- R215: opcode 8E with the segment register ES or CS is another row or no instruction. -/
theorem test_wf_mov_sw : (Instr.movSwEwSsDs (.reg .ax) .cs).wf = false ∧ (Instr.movSwEwSsDs (.reg .ax) .es).wf = false := by
  decide

/-- R218: a defined encoding is no `ud`. -/
theorem test_wf_ud : (Instr.ud 0x90 none).wf = false ∧ (Instr.ud 0x8D (some 0x00)).wf = false ∧
    (Instr.ud 0x8E (some 0xD8)).wf = false := by decide

theorem test_wf_ok : (Instr.addEbGb (.mem (.disp8 .bp 0)) .al).wf = true ∧ (Instr.movSwEwSsDs (.reg .ax) .ss).wf = true ∧
    (Instr.ud 0x0F none).wf = true := by decide

/-! ### Decoding -/

/-- The bytes are exactly the instruction's. -/
def decodesTo (p : List Byte × Instr) : Bool :=
  match decode p.1 with
  | .ok (i, rest) => decide (i = p.2) && rest.isEmpty
  | .error _ => false

def words1 : List (List Byte × Instr) := [
  ([0x00, 0xCB], .addEbGb (.reg .bl) .cl),
  ([0x01, 0x26, 0x34, 0x12], .addEvGv (.mem (.direct 0x1234)) .sp),
  ([0x02, 0x38], .addGbEb (.mem (.base .bxSi)) .bh),
  ([0x03, 0xD2], .addGvEv (.reg .dx) .dx),
  ([0x04, 0x85], .addAlIb 0x85),
  ([0x05, 0xEF, 0xBE], .addAxIv 0xBEEF),
  ([0x08, 0xD9], .orEbGb (.reg .cl) .bl),
  ([0x09, 0x76, 0xFE], .orEvGv (.mem (.disp8 .bp 0xFE)) .si),
  ([0x0A, 0x8D, 0x34, 0x12], .orGbEb (.mem (.disp16 .di 0x1234)) .cl),
  ([0x0B, 0xE0], .orGvEv (.reg .ax) .sp),
  ([0x0C, 0x85], .orAlIb 0x85),
  ([0x0D, 0xEF, 0xBE], .orAxIv 0xBEEF),
  ([0x10, 0xEF], .adcEbGb (.reg .bh) .ch),
  ([0x11, 0x01], .adcEvGv (.mem (.base .bxDi)) .ax),
  ([0x12, 0x1A], .adcGbEb (.mem (.base .bpSi)) .bl),
  ([0x13, 0xF6], .adcGvEv (.reg .si) .si),
  ([0x14, 0x85], .adcAlIb 0x85),
  ([0x15, 0xEF, 0xBE], .adcAxIv 0xBEEF),
  ([0x18, 0xFD], .sbbEbGb (.reg .ch) .bh),
  ([0x19, 0x53, 0x10], .sbbEvGv (.mem (.disp8 .bpDi 0x10)) .dx),
  ([0x1A, 0x2C], .sbbGbEb (.mem (.base .si)) .ch),
  ([0x1B, 0xC4], .sbbGvEv (.reg .sp) .ax),
  ([0x1C, 0x85], .sbbAlIb 0x85),
  ([0x1D, 0xEF, 0xBE], .sbbAxIv 0xBEEF)]

theorem test_decode_words1 : words1.all decodesTo = true := by decide +kernel

def words2 : List (List Byte × Instr) := [
  ([0x20, 0xCB], .andEbGb (.reg .bl) .cl),
  ([0x21, 0xA7, 0x34, 0x12], .andEvGv (.mem (.disp16 .bx 0x1234)) .sp),
  ([0x22, 0x3E, 0x34, 0x12], .andGbEb (.mem (.direct 0x1234)) .bh),
  ([0x23, 0xD2], .andGvEv (.reg .dx) .dx),
  ([0x24, 0x85], .andAlIb 0x85),
  ([0x25, 0xEF, 0xBE], .andAxIv 0xBEEF),
  ([0x28, 0xD9], .subEbGb (.reg .cl) .bl),
  ([0x29, 0x30], .subEvGv (.mem (.base .bxSi)) .si),
  ([0x2A, 0x4E, 0xFE], .subGbEb (.mem (.disp8 .bp 0xFE)) .cl),
  ([0x2B, 0xE0], .subGvEv (.reg .ax) .sp),
  ([0x2C, 0x85], .subAlIb 0x85),
  ([0x2D, 0xEF, 0xBE], .subAxIv 0xBEEF),
  ([0x30, 0xEF], .xorEbGb (.reg .bh) .ch),
  ([0x31, 0x85, 0x34, 0x12], .xorEvGv (.mem (.disp16 .di 0x1234)) .ax),
  ([0x32, 0x19], .xorGbEb (.mem (.base .bxDi)) .bl),
  ([0x33, 0xF6], .xorGvEv (.reg .si) .si),
  ([0x34, 0x85], .xorAlIb 0x85),
  ([0x35, 0xEF, 0xBE], .xorAxIv 0xBEEF),
  ([0x38, 0xFD], .cmpEbGb (.reg .ch) .bh),
  ([0x39, 0x12], .cmpEvGv (.mem (.base .bpSi)) .dx),
  ([0x3A, 0x6B, 0x10], .cmpGbEb (.mem (.disp8 .bpDi 0x10)) .ch),
  ([0x3B, 0xC4], .cmpGvEv (.reg .sp) .ax),
  ([0x3C, 0x85], .cmpAlIb 0x85),
  ([0x3D, 0xEF, 0xBE], .cmpAxIv 0xBEEF)]

theorem test_decode_words2 : words2.all decodesTo = true := by decide +kernel

def words3 : List (List Byte × Instr) := [
  ([0x70, 0x85], .joJb 0x85),
  ([0x71, 0x85], .jnoJb 0x85),
  ([0x72, 0x85], .jbJb 0x85),
  ([0x73, 0x85], .jnbJb 0x85),
  ([0x74, 0x85], .jzJb 0x85),
  ([0x75, 0x85], .jnzJb 0x85),
  ([0x76, 0x85], .jbeJb 0x85),
  ([0x77, 0x85], .jaJb 0x85),
  ([0x78, 0x85], .jsJb 0x85),
  ([0x79, 0x85], .jnsJb 0x85),
  ([0x7A, 0x85], .jpJb 0x85),
  ([0x7B, 0x85], .jnpJb 0x85),
  ([0x7C, 0x85], .jlJb 0x85),
  ([0x7D, 0x85], .jgeJb 0x85),
  ([0x7E, 0x85], .jleJb 0x85),
  ([0x7F, 0x85], .jgJb 0x85),
  ([0x80, 0x04, 0x85], .addEbIb (.mem (.base .si)) 0x85),
  ([0x80, 0x8F, 0x34, 0x12, 0x85], .orEbIb (.mem (.disp16 .bx 0x1234)) 0x85),
  ([0x80, 0xD5, 0x85], .adcEbIb (.reg .ch) 0x85),
  ([0x80, 0x1E, 0x34, 0x12, 0x85], .sbbEbIb (.mem (.direct 0x1234)) 0x85),
  ([0x80, 0x20, 0x85], .andEbIb (.mem (.base .bxSi)) 0x85),
  ([0x80, 0xEC, 0x85], .subEbIb (.reg .ah) 0x85),
  ([0x80, 0x76, 0xFE, 0x85], .xorEbIb (.mem (.disp8 .bp 0xFE)) 0x85),
  ([0x80, 0xBD, 0x34, 0x12, 0x85], .cmpEbIb (.mem (.disp16 .di 0x1234)) 0x85)]

theorem test_decode_words3 : words3.all decodesTo = true := by decide +kernel

def words4 : List (List Byte × Instr) := [
  ([0x81, 0xC3, 0xEF, 0xBE], .addEvIv (.reg .bx) 0xBEEF),
  ([0x81, 0x09, 0xEF, 0xBE], .orEvIv (.mem (.base .bxDi)) 0xBEEF),
  ([0x81, 0x12, 0xEF, 0xBE], .adcEvIv (.mem (.base .bpSi)) 0xBEEF),
  ([0x81, 0xDA, 0xEF, 0xBE], .sbbEvIv (.reg .dx) 0xBEEF),
  ([0x81, 0x63, 0x10, 0xEF, 0xBE], .andEvIv (.mem (.disp8 .bpDi 0x10)) 0xBEEF),
  ([0x81, 0x2C, 0xEF, 0xBE], .subEvIv (.mem (.base .si)) 0xBEEF),
  ([0x81, 0xF1, 0xEF, 0xBE], .xorEvIv (.reg .cx) 0xBEEF),
  ([0x81, 0xBF, 0x34, 0x12, 0xEF, 0xBE], .cmpEvIv (.mem (.disp16 .bx 0x1234)) 0xBEEF),
  ([0x82, 0x06, 0x34, 0x12, 0x85], .addEbIb82 (.mem (.direct 0x1234)) 0x85),
  ([0x82, 0xC8, 0x85], .orEbIb82 (.reg .al) 0x85),
  ([0x82, 0x10, 0x85], .adcEbIb82 (.mem (.base .bxSi)) 0x85),
  ([0x82, 0x5E, 0xFE, 0x85], .sbbEbIb82 (.mem (.disp8 .bp 0xFE)) 0x85),
  ([0x82, 0xE7, 0x85], .andEbIb82 (.reg .bh) 0x85),
  ([0x82, 0xAD, 0x34, 0x12, 0x85], .subEbIb82 (.mem (.disp16 .di 0x1234)) 0x85),
  ([0x82, 0x31, 0x85], .xorEbIb82 (.mem (.base .bxDi)) 0x85),
  ([0x82, 0xFE, 0x85], .cmpEbIb82 (.reg .dh) 0x85),
  ([0x83, 0x02, 0x85], .addEvIb (.mem (.base .bpSi)) 0x85),
  ([0x83, 0x4B, 0x10, 0x85], .orEvIb (.mem (.disp8 .bpDi 0x10)) 0x85),
  ([0x83, 0xD5, 0x85], .adcEvIb (.reg .bp) 0x85),
  ([0x83, 0x1C, 0x85], .sbbEvIb (.mem (.base .si)) 0x85),
  ([0x83, 0xA7, 0x34, 0x12, 0x85], .andEvIb (.mem (.disp16 .bx 0x1234)) 0x85),
  ([0x83, 0xEC, 0x85], .subEvIb (.reg .sp) 0x85),
  ([0x83, 0x36, 0x34, 0x12, 0x85], .xorEvIb (.mem (.direct 0x1234)) 0x85),
  ([0x83, 0x38, 0x85], .cmpEvIb (.mem (.base .bxSi)) 0x85)]

theorem test_decode_words4 : words4.all decodesTo = true := by decide +kernel

def words5 : List (List Byte × Instr) := [
  ([0x84, 0xCB], .testEbGb (.reg .bl) .cl),
  ([0x85, 0x66, 0xFE], .testEvGv (.mem (.disp8 .bp 0xFE)) .sp),
  ([0x86, 0xBD, 0x34, 0x12], .xchgEbGb (.mem (.disp16 .di 0x1234)) .bh),
  ([0x87, 0xD2], .xchgEvGv (.reg .dx) .dx),
  ([0x88, 0x29], .movEbGb (.mem (.base .bxDi)) .ch),
  ([0x89, 0x02], .movEvGv (.mem (.base .bpSi)) .ax),
  ([0x8A, 0xD9], .movGbEb (.reg .cl) .bl),
  ([0x8B, 0x73, 0x10], .movGvEv (.mem (.disp8 .bpDi 0x10)) .si),
  ([0x8C, 0x14], .movEwSw (.mem (.base .si)) .ss),
  ([0x8D, 0xA7, 0x34, 0x12], .leaGvM (.disp16 .bx 0x1234) .sp),
  ([0x8E, 0x06, 0x34, 0x12], .movSwEwEs (.mem (.direct 0x1234))),
  ([0x8E, 0x18], .movSwEwSsDs (.mem (.base .bxSi)) .ds),
  ([0x8F, 0xC7], .popEv (.reg .di)),
  ([0x9A, 0xEF, 0xBE, 0x78, 0x56], .callAp 0xBEEF 0x5678),
  ([0xA0, 0xEF, 0xBE], .movAlOb 0xBEEF),
  ([0xA1, 0xEF, 0xBE], .movAxOv 0xBEEF),
  ([0xA2, 0xEF, 0xBE], .movObAl 0xBEEF),
  ([0xA3, 0xEF, 0xBE], .movOvAx 0xBEEF),
  ([0xA8, 0x85], .testAlIb 0x85),
  ([0xA9, 0xEF, 0xBE], .testAxIv 0xBEEF),
  ([0xB0, 0x85], .movAlIb 0x85),
  ([0xB8, 0xEF, 0xBE], .movAxIv 0xBEEF),
  ([0xB1, 0x85], .movClIb 0x85),
  ([0xB9, 0xEF, 0xBE], .movCxIv 0xBEEF)]

theorem test_decode_words5 : words5.all decodesTo = true := by decide +kernel

def words6 : List (List Byte × Instr) := [
  ([0xB2, 0x85], .movDlIb 0x85),
  ([0xBA, 0xEF, 0xBE], .movDxIv 0xBEEF),
  ([0xB3, 0x85], .movBlIb 0x85),
  ([0xBB, 0xEF, 0xBE], .movBxIv 0xBEEF),
  ([0xB4, 0x85], .movAhIb 0x85),
  ([0xBC, 0xEF, 0xBE], .movSpIv 0xBEEF),
  ([0xB5, 0x85], .movChIb 0x85),
  ([0xBD, 0xEF, 0xBE], .movBpIv 0xBEEF),
  ([0xB6, 0x85], .movDhIb 0x85),
  ([0xBE, 0xEF, 0xBE], .movSiIv 0xBEEF),
  ([0xB7, 0x85], .movBhIb 0x85),
  ([0xBF, 0xEF, 0xBE], .movDiIv 0xBEEF),
  ([0xC2, 0xEF, 0xBE], .retIw 0xBEEF),
  ([0xC4, 0x46, 0xFE], .lesGvMp (.disp8 .bp 0xFE) .ax),
  ([0xC5, 0x9D, 0x34, 0x12], .ldsGvMp (.disp16 .di 0x1234) .bx),
  ([0xC6, 0xC6, 0x85], .movEbIb (.reg .dh) 0x85),
  ([0xC7, 0x01, 0xEF, 0xBE], .movEvIv (.mem (.base .bxDi)) 0xBEEF),
  ([0xCA, 0xEF, 0xBE], .retfIw 0xBEEF),
  ([0xCD, 0x85], .intIb 0x85),
  ([0xD0, 0x02], .rolEb1 (.mem (.base .bpSi))),
  ([0xD0, 0x4B, 0x10], .rorEb1 (.mem (.disp8 .bpDi 0x10))),
  ([0xD0, 0xD4], .rclEb1 (.reg .ah)),
  ([0xD0, 0x1C], .rcrEb1 (.mem (.base .si))),
  ([0xD0, 0xA7, 0x34, 0x12], .shlEb1 (.mem (.disp16 .bx 0x1234)))]

theorem test_decode_words6 : words6.all decodesTo = true := by decide +kernel

def words7 : List (List Byte × Instr) := [
  ([0xD0, 0xEB], .shrEb1 (.reg .bl)),
  ([0xD0, 0x3E, 0x34, 0x12], .sarEb1 (.mem (.direct 0x1234))),
  ([0xD1, 0x00], .rolEv1 (.mem (.base .bxSi))),
  ([0xD1, 0xCA], .rorEv1 (.reg .dx)),
  ([0xD1, 0x56, 0xFE], .rclEv1 (.mem (.disp8 .bp 0xFE))),
  ([0xD1, 0x9D, 0x34, 0x12], .rcrEv1 (.mem (.disp16 .di 0x1234))),
  ([0xD1, 0xE1], .shlEv1 (.reg .cx)),
  ([0xD1, 0x29], .shrEv1 (.mem (.base .bxDi))),
  ([0xD1, 0x3A], .sarEv1 (.mem (.base .bpSi))),
  ([0xD2, 0xC0], .rolEbCl (.reg .al)),
  ([0xD2, 0x4B, 0x10], .rorEbCl (.mem (.disp8 .bpDi 0x10))),
  ([0xD2, 0x14], .rclEbCl (.mem (.base .si))),
  ([0xD2, 0xDF], .rcrEbCl (.reg .bh)),
  ([0xD2, 0xA7, 0x34, 0x12], .shlEbCl (.mem (.disp16 .bx 0x1234))),
  ([0xD2, 0x2E, 0x34, 0x12], .shrEbCl (.mem (.direct 0x1234))),
  ([0xD2, 0xFE], .sarEbCl (.reg .dh)),
  ([0xD3, 0x00], .rolEvCl (.mem (.base .bxSi))),
  ([0xD3, 0x4E, 0xFE], .rorEvCl (.mem (.disp8 .bp 0xFE))),
  ([0xD3, 0xD5], .rclEvCl (.reg .bp)),
  ([0xD3, 0x9D, 0x34, 0x12], .rcrEvCl (.mem (.disp16 .di 0x1234))),
  ([0xD3, 0x21], .shlEvCl (.mem (.base .bxDi))),
  ([0xD3, 0xEC], .shrEvCl (.reg .sp)),
  ([0xD3, 0x3A], .sarEvCl (.mem (.base .bpSi))),
  ([0xD4, 0x85], .aamIb 0x85)]

theorem test_decode_words7 : words7.all decodesTo = true := by decide +kernel

def words8 : List (List Byte × Instr) := [
  ([0xD5, 0x85], .aadIb 0x85),
  ([0xD8, 0x6B, 0x10], .esc0Ev (.mem (.disp8 .bpDi 0x10)) 5),
  ([0xD9, 0x04], .esc1Ev (.mem (.base .si)) 0),
  ([0xDA, 0xDA], .esc2Ev (.reg .dx) 3),
  ([0xDB, 0xB7, 0x34, 0x12], .esc3Ev (.mem (.disp16 .bx 0x1234)) 6),
  ([0xDC, 0x0E, 0x34, 0x12], .esc4Ev (.mem (.direct 0x1234)) 1),
  ([0xDD, 0xE1], .esc5Ev (.reg .cx) 4),
  ([0xDE, 0x38], .esc6Ev (.mem (.base .bxSi)) 7),
  ([0xDF, 0x56, 0xFE], .esc7Ev (.mem (.disp8 .bp 0xFE)) 2),
  ([0xE0, 0x85], .loopnzJb 0x85),
  ([0xE1, 0x85], .loopzJb 0x85),
  ([0xE2, 0x85], .loopJb 0x85),
  ([0xE3, 0x85], .jcxzJb 0x85),
  ([0xE4, 0x85], .inAlIb 0x85),
  ([0xE5, 0x85], .inAxIb 0x85),
  ([0xE6, 0x85], .outIbAl 0x85),
  ([0xE7, 0x85], .outIbAx 0x85),
  ([0xE8, 0xEF, 0xBE], .callJv 0xBEEF),
  ([0xE9, 0xEF, 0xBE], .jmpJv 0xBEEF),
  ([0xEA, 0xEF, 0xBE, 0x78, 0x56], .jmpAp 0xBEEF 0x5678),
  ([0xEB, 0x85], .jmpJb 0x85),
  ([0xF6, 0xC4, 0x85], .testEbIb (.reg .ah) 0x85),
  ([0xF6, 0x95, 0x34, 0x12], .notEb (.mem (.disp16 .di 0x1234))),
  ([0xF6, 0x19], .negEb (.mem (.base .bxDi)))]

theorem test_decode_words8 : words8.all decodesTo = true := by decide +kernel

def words9 : List (List Byte × Instr) := [
  ([0xF6, 0xE3], .mulEb (.reg .bl)),
  ([0xF6, 0x2A], .imulEb (.mem (.base .bpSi))),
  ([0xF6, 0x73, 0x10], .divEb (.mem (.disp8 .bpDi 0x10))),
  ([0xF6, 0xFA], .idivEb (.reg .dl)),
  ([0xF7, 0x04, 0xEF, 0xBE], .testEvIv (.mem (.base .si)) 0xBEEF),
  ([0xF7, 0x97, 0x34, 0x12], .notEv (.mem (.disp16 .bx 0x1234))),
  ([0xF7, 0xD9], .negEv (.reg .cx)),
  ([0xF7, 0x26, 0x34, 0x12], .mulEv (.mem (.direct 0x1234))),
  ([0xF7, 0x28], .imulEv (.mem (.base .bxSi))),
  ([0xF7, 0xF0], .divEv (.reg .ax)),
  ([0xF7, 0x7E, 0xFE], .idivEv (.mem (.disp8 .bp 0xFE))),
  ([0xFE, 0x85, 0x34, 0x12], .incEb (.mem (.disp16 .di 0x1234))),
  ([0xFE, 0xCF], .decEb (.reg .bh)),
  ([0xFE, 0xFD, 0xEF, 0xBE], .callbackIw 5 0xBEEF),
  ([0xFF, 0x01], .incEv (.mem (.base .bxDi))),
  ([0xFF, 0xCE], .decEv (.reg .si)),
  ([0xFF, 0x12], .callEv (.mem (.base .bpSi))),
  ([0xFF, 0x5B, 0x10], .callMp (.disp8 .bpDi 0x10)),
  ([0xFF, 0xE5], .jmpEv (.reg .bp)),
  ([0xFF, 0x2C], .jmpMp (.base .si)),
  ([0xFF, 0xB7, 0x34, 0x12], .pushEv (.mem (.disp16 .bx 0x1234))),
  ([0x06], .pushEs),
  ([0x07], .popEs),
  ([0x0E], .pushCs)]

theorem test_decode_words9 : words9.all decodesTo = true := by decide +kernel

def words10 : List (List Byte × Instr) := [
  ([0x16], .pushSs),
  ([0x17], .popSs),
  ([0x1E], .pushDs),
  ([0x1F], .popDs),
  ([0x27], .daa),
  ([0x2F], .das),
  ([0x37], .aaa),
  ([0x3F], .aas),
  ([0x26], .segEs),
  ([0x2E], .segCs),
  ([0x36], .segSs),
  ([0x3E], .segDs),
  ([0x40], .incAx),
  ([0x48], .decAx),
  ([0x50], .pushAx),
  ([0x58], .popAx),
  ([0x41], .incCx),
  ([0x49], .decCx),
  ([0x51], .pushCx),
  ([0x59], .popCx),
  ([0x42], .incDx),
  ([0x4A], .decDx),
  ([0x52], .pushDx),
  ([0x5A], .popDx)]

theorem test_decode_words10 : words10.all decodesTo = true := by decide +kernel

def words11 : List (List Byte × Instr) := [
  ([0x43], .incBx),
  ([0x4B], .decBx),
  ([0x53], .pushBx),
  ([0x5B], .popBx),
  ([0x44], .incSp),
  ([0x4C], .decSp),
  ([0x54], .pushSp),
  ([0x5C], .popSp),
  ([0x45], .incBp),
  ([0x4D], .decBp),
  ([0x55], .pushBp),
  ([0x5D], .popBp),
  ([0x46], .incSi),
  ([0x4E], .decSi),
  ([0x56], .pushSi),
  ([0x5E], .popSi),
  ([0x47], .incDi),
  ([0x4F], .decDi),
  ([0x57], .pushDi),
  ([0x5F], .popDi),
  ([0x90], .nop),
  ([0x91], .xchgCxAx),
  ([0x92], .xchgDxAx),
  ([0x93], .xchgBxAx)]

theorem test_decode_words11 : words11.all decodesTo = true := by decide +kernel

def words12 : List (List Byte × Instr) := [
  ([0x94], .xchgSpAx),
  ([0x95], .xchgBpAx),
  ([0x96], .xchgSiAx),
  ([0x97], .xchgDiAx),
  ([0x98], .cbw),
  ([0x99], .cwd),
  ([0x9B], .wait),
  ([0x9C], .pushf),
  ([0x9D], .popf),
  ([0x9E], .sahf),
  ([0x9F], .lahf),
  ([0xA4], .movsb),
  ([0xA5], .movsw),
  ([0xA6], .cmpsb),
  ([0xA7], .cmpsw),
  ([0xAA], .stosb),
  ([0xAB], .stosw),
  ([0xAC], .lodsb),
  ([0xAD], .lodsw),
  ([0xAE], .scasb),
  ([0xAF], .scasw),
  ([0xC3], .ret),
  ([0xCB], .retf),
  ([0xCC], .int3)]

theorem test_decode_words12 : words12.all decodesTo = true := by decide +kernel

def words13 : List (List Byte × Instr) := [
  ([0xCE], .into),
  ([0xCF], .iret),
  ([0xD7], .xlat),
  ([0xEC], .inAlDx),
  ([0xED], .inAxDx),
  ([0xEE], .outDxAl),
  ([0xEF], .outDxAx),
  ([0xF0], .lock),
  ([0xF2], .repne),
  ([0xF3], .rep),
  ([0xF4], .hlt),
  ([0xF5], .cmc),
  ([0xF8], .clc),
  ([0xF9], .stc),
  ([0xFA], .cli),
  ([0xFB], .sti),
  ([0xFC], .cld),
  ([0xFD], .std)]

theorem test_decode_words13 : words13.all decodesTo = true := by decide +kernel
/-- R218: the undefined encodings at the ends of their ranges. -/
def undefinedBytes : List (Byte × Byte) :=
  [(0x0F, 0), (0x60, 0), (0x6F, 0), (0xC0, 0), (0xC1, 0), (0xC8, 0), (0xC9, 0), (0xD6, 0), (0xF1, 0), (0xD0, 0xF0), (0xD3, 0x30),
    (0xF6, 0xC8), (0xF7, 0x0E), (0xFE, 0xD0), (0xFE, 0x30), (0xFE, 0xBF), (0xFF, 0xFF), (0xFF, 0x38), (0xFF, 0xD8), (0xFF, 0xE8),
    (0x8C, 0xE0), (0x8E, 0xC8), (0x8E, 0x27), (0x8F, 0xC8), (0xC6, 0x08), (0xC7, 0xF8), (0x8D, 0xC0), (0xC4, 0xFF), (0xC5, 0xD8)]

/-- Their defined neighbours. -/
def definedBytes : List (Byte × Byte) :=
  [(0x5F, 0), (0x70, 0), (0xC2, 0), (0xC7, 0), (0xCA, 0), (0xD7, 0), (0xF0, 0), (0xF2, 0), (0xD0, 0xE8), (0xD3, 0x38), (0xF6, 0xC0),
    (0xF7, 0x16), (0xFE, 0xC8), (0xFE, 0xF8), (0xFF, 0xF7), (0xFF, 0x18), (0xFF, 0x28), (0x8C, 0xD8), (0x8E, 0xC0), (0x8E, 0xD8),
    (0x8F, 0xC0), (0xC6, 0x00), (0x8D, 0x80), (0xC4, 0xBF), (0xC5, 0x18)]

def decodesToUd (p : Byte × Byte) : Bool :=
  match decode [p.1, p.2, 0, 0, 0, 0] with
  | .ok (.ud op _, _) => op == p.1
  | _ => false

theorem test_undefined : undefinedBytes.all decodesToUd = true := by decide +kernel

theorem test_defined : definedBytes.all (fun p => !decodesToUd p) = true := by decide +kernel

/-- R218, R223: a table word has the opcode in bits 15 to 8 and the ModRM byte in bits 7 to 0. -/
theorem test_table_word :
    decodeTableWord 16 0x80C1 = some (.addEbIb (.reg .cl) 0) ∧ decodeTableWord 16 0x9000 = some .nop ∧
      decodeTableWord 16 0x0F00 = some (.ud 0x0F none) := by decide +kernel

/-- A placed word is fetched by the very next step. -/
theorem test_placed_word :
    decodeTableWord 16 0x40FF = some .incAx ∧ (match Machine.step (State.reset.withFetchWord 16 0x40FF) with
      | .next t => t.regs.ax == 1 && t.ip == 0x0101
      | _ => false) = true := by decide +kernel

/-! ### Single steps -/

/-- One step from `s` with `code` at CS:IP ends in a state that `p` holds of. -/
def after (s : State) (code : List Byte) (p : State → Bool) : Bool :=
  match Machine.step (s.writeBytes s.segs.cs s.ip code) with
  | .next t => p t
  | .fault _ | .refused _ => false

/-- CF, PF, AF, ZF, SF and OF. -/
def six (s : State) : List Bool := statusFlags.map s.flag

/-- V-ALU-13: logical clears CF and OF: XOR AL,0x01 from FLAGS 0x0803 -/
theorem test_V_ALU_13 :
    after { State.reset with regs := { State.reset.regs with ax := 0x1 }, flags := 0x803 }
      [0x34, 0x01]
      (fun t => t.regs.ax == 0x0000 && t.ip == 0x0102 && six t == [false, true, false, true, false, false]) = true := by
  decide +kernel

/-- V-AR-5: ADD AX,-1 via 83 (sign-extended Ib) -/
theorem test_V_AR_5 :
    after { State.reset with regs := { State.reset.regs with ax := 0x5 } }
      [0x83, 0xC0, 0xFF]
      (fun t => t.regs.ax == 0x0004 && t.ip == 0x0103 && six t == [true, false, true, false, false, false]) = true := by
  decide +kernel

/-- V-AR-6: ADD [BX],CL (memory destination) -/
theorem test_V_AR_6 :
    after { State.reset with
        regs := { State.reset.regs with bx := 0x40, cx := 0x8 }
        mem := [(0x2040, 0x8)] }
      [0x00, 0x0F]
      (fun t => t.ip == 0x0102 && six t == [false, false, true, false, false, false] &&
        t.memRead8 0x2040 == 0x10) = true := by
  decide +kernel

/-- V-AR-7: ADC AL,BL (0xFF+0xFF+1) -/
theorem test_V_AR_7 :
    after { State.reset with regs := { State.reset.regs with ax := 0xFF, bx := 0xFF }, flags := 0x3 }
      [0x12, 0xC3]
      (fun t => t.ip == 0x0102 && six t == [true, true, true, false, true, false]) = true := by
  decide +kernel

/-- V-AR-13: SBB AL,BL (0-0xFF-1) -/
theorem test_V_AR_13 :
    after { State.reset with regs := { State.reset.regs with ax := 0x0, bx := 0xFF }, flags := 0x3 }
      [0x1A, 0xC3]
      (fun t => t.ip == 0x0102 && six t == [true, true, true, true, false, false]) = true := by
  decide +kernel

/-- V-AR-15: CMP AL,0x80 (0x7F-0x80) -/
theorem test_V_AR_15 :
    after { State.reset with regs := { State.reset.regs with ax := 0x7F } }
      [0x3C, 0x80]
      (fun t => t.ip == 0x0102 && six t == [true, true, false, false, true, true]) = true := by
  decide +kernel

/-- V-AR-18: INC BYTE PTR [BX] -/
theorem test_V_AR_18 :
    after { State.reset with regs := { State.reset.regs with bx := 0x40 }, mem := [(0x2040, 0xF)] }
      [0xFE, 0x07]
      (fun t => t.ip == 0x0102 && six t == [false, false, true, false, false, false] &&
        t.memRead8 0x2040 == 0x10) = true := by
  decide +kernel

/-- V-AR-19: DEC CX 0 (CF kept) -/
theorem test_V_AR_19 :
    after { State.reset with regs := { State.reset.regs with cx := 0x0 }, flags := 0x3 }
      [0x49]
      (fun t => t.regs.cx == 0xFFFF && t.ip == 0x0101 && six t == [true, true, true, false, true, false]) = true := by
  decide +kernel

/-- V-AR-22: NEG AL 0x80 (OF=1) -/
theorem test_V_AR_22 :
    after { State.reset with regs := { State.reset.regs with ax := 0x80 } }
      [0xF6, 0xD8]
      (fun t => t.ip == 0x0102 && six t == [true, false, false, false, true, true]) = true := by
  decide +kernel

/-- V-AR-24: MUL BX 0xFFFF*0xFFFF -/
theorem test_V_AR_24 :
    after { State.reset with regs := { State.reset.regs with ax := 0xFFFF, bx := 0xFFFF } }
      [0xF7, 0xE3]
      (fun t => t.regs.ax == 0x0001 && t.regs.dx == 0xFFFE && t.ip == 0x0102) = true := by
  decide +kernel

/-- V-AR-27: IMUL BL -1*2 -/
theorem test_V_AR_27 :
    after { State.reset with regs := { State.reset.regs with ax := 0xFF, bx := 0x2 } }
      [0xF6, 0xEB]
      (fun t => t.regs.ax == 0xFFFE && t.ip == 0x0102) = true := by
  decide +kernel

/-- V-AR-28: DIV BX (DX:AX=0x0001:0x0000 by 2) -/
theorem test_V_AR_28 :
    after { State.reset with regs := { State.reset.regs with dx := 0x1, ax := 0x0, bx := 0x2 } }
      [0xF7, 0xF3]
      (fun t => t.regs.ax == 0x8000 && t.regs.dx == 0x0000 && t.ip == 0x0102) = true := by
  decide +kernel

/-- V-AR-30: DIV BL with quotient 0x100 (overflow) -/
theorem test_V_AR_30 :
    after { State.reset with
        regs := { State.reset.regs with ax := 0x200, bx := 0x2 }
        mem := [(0x3, 0x3)] }
      [0xF6, 0xF3]
      (fun t => t.regs.sp == 0x00FA && t.segs.cs == 0x0300 && t.ip == 0x0000) = true := by
  decide +kernel

/-- V-AR-31: IDIV BL (7 / -2) -/
theorem test_V_AR_31 :
    after { State.reset with regs := { State.reset.regs with ax := 0x7, bx := 0xFE } }
      [0xF6, 0xFB]
      (fun t => t.regs.ax == 0x01FD && t.ip == 0x0102) = true := by
  decide +kernel

/-- V-AR-34: IDIV BL, q = -128, IDIV_MIN_QUOTIENT_FAULTS = false -/
theorem test_V_AR_34 :
    after { State.reset with
        regs := { State.reset.regs with ax := 0xFF80, bx := 0x1 }
        params := { Params.defaults with idivMinQuotientFaults := false }
        mem := [(0x3, 0x3)] }
      [0xF6, 0xFB]
      (fun t => t.regs.ax == 0x0080 && t.ip == 0x0102) = true := by
  decide +kernel

/-- V-AR-35: IDIV BX (DX:AX = -100000 by 7) -/
theorem test_V_AR_35 :
    after { State.reset with regs := { State.reset.regs with dx := 0xFFFE, ax := 0x7960, bx := 0x7 } }
      [0xF7, 0xFB]
      (fun t => t.regs.ax == 0xC833 && t.regs.dx == 0xFFFB && t.ip == 0x0102) = true := by
  decide +kernel

/-- V-AR-37: AAA, AL=0xFA (8086: AH+1, AL=0) -/
theorem test_V_AR_37 :
    after { State.reset with regs := { State.reset.regs with ax := 0xFA } }
      [0x37]
      (fun t => t.regs.ax == 0x0100 && t.ip == 0x0101) = true := by
  decide +kernel

/-- V-AR-38: AAS, AL=0x0B -/
theorem test_V_AR_38 :
    after { State.reset with regs := { State.reset.regs with ax := 0x20B } }
      [0x3F]
      (fun t => t.regs.ax == 0x0105 && t.ip == 0x0101) = true := by
  decide +kernel

/-- V-AR-39: DAA after 0x79+0x35 (AL=0xAE) -/
theorem test_V_AR_39 :
    after { State.reset with regs := { State.reset.regs with ax := 0xAE } }
      [0x27]
      (fun t => t.regs.ax == 0x0014 && t.ip == 0x0101) = true := by
  decide +kernel

/-- V-AR-42: DAS with AL=0x03, AF=1, CF=0 (borrow from -6) -/
theorem test_V_AR_42 :
    after { State.reset with regs := { State.reset.regs with ax := 0x3 }, flags := 0x12 }
      [0x2F]
      (fun t => t.regs.ax == 0x00FD && t.ip == 0x0101) = true := by
  decide +kernel

/-- V-AR-43: AAM base 16 -/
theorem test_V_AR_43 :
    after { State.reset with regs := { State.reset.regs with ax := 0x3F } }
      [0xD4, 0x10]
      (fun t => t.regs.ax == 0x030F && t.ip == 0x0102) = true := by
  decide +kernel

/-- V-AR-45: AAD base 10 with AH*10+AL > 0xFF -/
theorem test_V_AR_45 :
    after { State.reset with regs := { State.reset.regs with ax := 0x1909 } }
      [0xD5, 0x0A]
      (fun t => t.regs.ax == 0x0003 && t.ip == 0x0102) = true := by
  decide +kernel

/-- V-AR-47: CWD, AX=0x7FFF -/
theorem test_V_AR_47 :
    after { State.reset with regs := { State.reset.regs with ax := 0x7FFF, dx := 0x1234 } }
      [0x99]
      (fun t => t.regs.dx == 0x0000 && t.ip == 0x0101 && t.flags == 0x2) = true := by
  decide +kernel

/-- V-LG-5: TEST WORD PTR [BX],0x0001 (grp3 /0 with Iw) -/
theorem test_V_LG_5 :
    after { State.reset with regs := { State.reset.regs with bx := 0x40 }, mem := [(0x2040, 0x2)] }
      [0xF7, 0x07, 0x01, 0x00]
      (fun t => t.ip == 0x0104 && six t == [false, true, false, true, false, false]) = true := by
  decide +kernel

/-- V-LG-6: NOT AL (no flag) -/
theorem test_V_LG_6 :
    after { State.reset with regs := { State.reset.regs with ax := 0xF }, flags := 0x2 }
      [0xF6, 0xD0]
      (fun t => t.regs.ax == 0x00F0 && t.ip == 0x0102 && t.flags == 0x2) = true := by
  decide +kernel

/-- V-LG-7: ROL AX,CL with CL=16 -/
theorem test_V_LG_7 :
    after { State.reset with regs := { State.reset.regs with ax := 0x8001, cx := 0x10 } }
      [0xD3, 0xC0]
      (fun t => t.ip == 0x0102) = true := by
  decide +kernel

/-- V-LG-8: ROR AL,1, AL=0x02 -/
theorem test_V_LG_8 :
    after { State.reset with regs := { State.reset.regs with ax := 0x2 } }
      [0xD0, 0xC8]
      (fun t => t.regs.ax == 0x0001 && t.ip == 0x0102 && t.flags == 0x2) = true := by
  decide +kernel

/-- V-LG-9: RCL AL,CL with CL=9 (identity) -/
theorem test_V_LG_9 :
    after { State.reset with regs := { State.reset.regs with ax := 0x5A, cx := 0x9 }, flags := 0x3 }
      [0xD2, 0xD0]
      (fun t => t.ip == 0x0102) = true := by
  decide +kernel

/-- V-LG-10: RCR AX,1 -/
theorem test_V_LG_10 :
    after { State.reset with regs := { State.reset.regs with ax := 0x1 }, flags := 0x2 }
      [0xD1, 0xD8]
      (fun t => t.regs.ax == 0x0000 && t.ip == 0x0102 && six t == [true, false, false, false, false, false]) = true := by
  decide +kernel

/-- V-LG-14: SHL AX,1 (OF from the sign change) -/
theorem test_V_LG_14 :
    after { State.reset with regs := { State.reset.regs with ax := 0x4000 } }
      [0xD1, 0xE0]
      (fun t => t.regs.ax == 0x8000 && t.ip == 0x0102) = true := by
  decide +kernel

/-- V-LG-16: SHR BYTE PTR [BX],1 -/
theorem test_V_LG_16 :
    after { State.reset with regs := { State.reset.regs with bx := 0x40 }, mem := [(0x2040, 0x1)] }
      [0xD0, 0x2F]
      (fun t => t.ip == 0x0102) = true := by
  decide +kernel

/-- V-LG-17: SAR AX,CL with CL=20 -/
theorem test_V_LG_17 :
    after { State.reset with regs := { State.reset.regs with ax := 0x8000, cx := 0x14 } }
      [0xD3, 0xF8]
      (fun t => t.regs.ax == 0xFFFF && t.ip == 0x0102) = true := by
  decide +kernel

/-- V-DT-2: MOV [BX+SI+4],AX -/
theorem test_V_DT_2 :
    after { State.reset with regs := { State.reset.regs with ax := 0xBEEF, bx := 0x10, si := 0x20 } }
      [0x89, 0x40, 0x04]
      (fun t => t.ip == 0x0103 && t.flags == 0x2 && t.memRead8 0x2034 == 0xEF && t.memRead8 0x2035 == 0xBE) = true := by
  decide +kernel

/-- V-DT-3: MOV AL,[BP+2] (SS default) -/
theorem test_V_DT_3 :
    after { State.reset with
        regs := { State.reset.regs with bp := 0x10 }
        segs := { State.reset.segs with ss := 0x300 }
        mem := [(0x3012, 0x77)] }
      [0x8A, 0x46, 0x02]
      (fun t => t.regs.ax == 0x0077 && t.ip == 0x0103 && t.flags == 0x2) = true := by
  decide +kernel

/-- V-DT-6: ES: MOV AL,[BX] -/
theorem test_V_DT_6 :
    after { State.reset with
        regs := { State.reset.regs with bx := 0x4 }
        segs := { State.reset.segs with es := 0x300 }
        mem := [(0x2004, 0x11), (0x3004, 0x99)] }
      [0x26, 0x8A, 0x07]
      (fun t => t.regs.ax == 0x0099 && t.ip == 0x0103 && t.flags == 0x2) = true := by
  decide +kernel

/-- V-DT-9: MOV SS,AX (sets the interrupt delay) -/
theorem test_V_DT_9 :
    after { State.reset with regs := { State.reset.regs with ax := 0x4000 } }
      [0x8E, 0xD0]
      (fun t => t.segs.ss == 0x4000 && t.ip == 0x0102 && t.flags == 0x2 && t.intDelay == true) = true := by
  decide +kernel

/-- V-DT-15: MOV AX,[0xFFFF] (word at offset 0xFFFF) -/
theorem test_V_DT_15 :
    after { State.reset with mem := [(0x11FFF, 0x11), (0x12000, 0x22)] }
      [0xA1, 0xFF, 0xFF]
      (fun t => t.regs.ax == 0x2211 && t.ip == 0x0103 && t.flags == 0x2) = true := by
  decide +kernel

/-- V-DT-18: PUSH SP (new value) -/
theorem test_V_DT_18 :
    after State.reset
      [0x54]
      (fun t => t.regs.sp == 0x00FE && t.ip == 0x0101 && t.flags == 0x2 && t.memRead8 0x20FE == 0xFE &&
        t.memRead8 0x20FF == 0x00) = true := by
  decide +kernel

/-- V-DT-19: PUSH AX with SP = 0 wraps -/
theorem test_V_DT_19 :
    after { State.reset with regs := { State.reset.regs with ax := 0xA55A, sp := 0x0 } }
      [0x50]
      (fun t => t.regs.sp == 0xFFFE && t.ip == 0x0101 && t.flags == 0x2 && t.memRead8 0x11FFE == 0x5A &&
        t.memRead8 0x11FFF == 0xA5) = true := by
  decide +kernel

/-- V-DT-26: POP WORD PTR [BX] -/
theorem test_V_DT_26 :
    after { State.reset with
        regs := { State.reset.regs with bx := 0x40 }
        mem := [(0x2100, 0xEF), (0x2101, 0xBE)] }
      [0x8F, 0x07]
      (fun t => t.regs.sp == 0x0102 && t.ip == 0x0102 && t.flags == 0x2 && t.memRead8 0x2040 == 0xEF &&
        t.memRead8 0x2041 == 0xBE) = true := by
  decide +kernel

/-- V-DT-27: XCHG AL,[BX] -/
theorem test_V_DT_27 :
    after { State.reset with
        regs := { State.reset.regs with ax := 0x11, bx := 0x40 }
        mem := [(0x2040, 0x22)] }
      [0x86, 0x07]
      (fun t => t.regs.ax == 0x0022 && t.ip == 0x0102 && t.flags == 0x2 && t.memRead8 0x2040 == 0x11) = true := by
  decide +kernel

/-- V-DT-31: XLAT -/
theorem test_V_DT_31 :
    after { State.reset with
        regs := { State.reset.regs with ax := 0x3, bx := 0x50 }
        mem := [(0x2053, 0xE7)] }
      [0xD7]
      (fun t => t.regs.ax == 0x00E7 && t.ip == 0x0101 && t.flags == 0x2) = true := by
  decide +kernel

/-- V-DT-32: LEA BX,[BP+SI+0x10] (no memory access) -/
theorem test_V_DT_32 :
    after { State.reset with regs := { State.reset.regs with bp := 0x1000, si := 0x200 } }
      [0x8D, 0x5A, 0x10]
      (fun t => t.regs.bx == 0x1210 && t.ip == 0x0103 && t.flags == 0x2) = true := by
  decide +kernel

/-- V-DT-34: LDS SI,[0x0010] -/
theorem test_V_DT_34 :
    after { State.reset with mem := [(0x2010, 0x34), (0x2011, 0x12), (0x2013, 0x50)] }
      [0xC5, 0x36, 0x10, 0x00]
      (fun t => t.regs.si == 0x1234 && t.segs.ds == 0x5000 && t.ip == 0x0104 && t.flags == 0x2) = true := by
  decide +kernel

/-- V-DT-38: SAHF leaves OF, bits 1/3/5 and the high byte -/
theorem test_V_DT_38 :
    after { State.reset with regs := { State.reset.regs with ax := 0x0 }, flags := 0xFFFF }
      [0x9E]
      (fun t => t.ip == 0x0101 && six t == [false, false, false, false, false, true] && t.flags == 0xFF2A) = true := by
  decide +kernel

/-- V-DT-40: POPF (every bit) -/
theorem test_V_DT_40 :
    after { State.reset with mem := [(0x2100, 0xD5), (0x2101, 0xFF)] }
      [0x9D]
      (fun t => t.regs.sp == 0x0102 && t.ip == 0x0101 && six t == [true, true, true, true, true, true] &&
        t.flag .tf == true && t.flag .ie == true && t.flag .df == true && t.flags == 0xFFD5) = true := by
  decide +kernel

/-- V-DT-41: MOV AL,[0x0010] with DS=0xFFFF (wraps to physical 0) -/
theorem test_V_DT_41 :
    after { State.reset with segs := { State.reset.segs with ds := 0xFFFF }, mem := [(0x0, 0x3C)] }
      [0xA0, 0x10, 0x00]
      (fun t => t.regs.ax == 0x003C && t.ip == 0x0103 && t.flags == 0x2) = true := by
  decide +kernel

/-- V-ST-2: MOVSW, DF=1 -/
theorem test_V_ST_2 :
    after { State.reset with
        regs := { State.reset.regs with si := 0x10, di := 0x20 }
        flags := 0x402
        mem := [(0x2010, 0x34), (0x2011, 0x12)] }
      [0xA5]
      (fun t => t.regs.si == 0x000E && t.regs.di == 0x001E && t.ip == 0x0101 && t.flags == 0x402 &&
        t.memRead8 0x2020 == 0x34 && t.memRead8 0x2021 == 0x12) = true := by
  decide +kernel

/-- V-ST-3: ES: MOVSB (the source segment is overridden) -/
theorem test_V_ST_3 :
    after { State.reset with
        regs := { State.reset.regs with si := 0x0, di := 0x8 }
        segs := { State.reset.segs with es := 0x300 }
        mem := [(0x2000, 0x44), (0x3000, 0x5E)] }
      [0x26, 0xA4]
      (fun t => t.regs.si == 0x0001 && t.regs.di == 0x0009 && t.ip == 0x0102 && t.flags == 0x2 &&
        t.memRead8 0x3008 == 0x5E) = true := by
  decide +kernel

/-- V-ST-5: REP MOVSB, CX=3, step 1 of 3 -/
theorem test_V_ST_5 :
    after { State.reset with
        regs := { State.reset.regs with cx := 0x3, si := 0x10, di := 0x20 }
        mem := [(0x2010, 0x1), (0x2011, 0x2), (0x2012, 0x3)] }
      [0xF3, 0xA4]
      (fun t => t.regs.cx == 0x0002 && t.regs.si == 0x0011 && t.regs.di == 0x0021 && t.ip == 0x0100 &&
        t.flags == 0x2 && t.memRead8 0x2020 == 0x01) = true := by
  decide +kernel

/-- V-ST-7: REP MOVSB with CX=0 (no iteration) -/
theorem test_V_ST_7 :
    after { State.reset with
        regs := { State.reset.regs with cx := 0x0, si := 0x10, di := 0x20 }
        mem := [(0x2010, 0x1)] }
      [0xF3, 0xA4]
      (fun t => t.ip == 0x0102 && t.flags == 0x2) = true := by
  decide +kernel

/-- V-ST-12: SCASW, no prefix -/
theorem test_V_ST_12 :
    after { State.reset with
        regs := { State.reset.regs with ax := 0x1234, di := 0x10 }
        mem := [(0x2010, 0x35), (0x2011, 0x12)] }
      [0xAF]
      (fun t => t.regs.di == 0x0012 && t.ip == 0x0101 && six t == [true, true, true, false, true, false]) = true := by
  decide +kernel

/-- V-ST-16: REP INC AX (prefix ignored, CX unchanged) -/
theorem test_V_ST_16 :
    after { State.reset with regs := { State.reset.regs with cx := 0x5, ax := 0x1 } }
      [0xF3, 0x40]
      (fun t => t.regs.ax == 0x0002 && t.ip == 0x0102 && t.flags == 0x2) = true := by
  decide +kernel

/-- V-CT-3: JMP near with wrap -/
theorem test_V_CT_3 :
    after { State.reset with ip := 0xFFF0 }
      [0xE9, 0x20, 0x00]
      (fun t => t.ip == 0x0013 && t.flags == 0x2) = true := by
  decide +kernel

/-- V-CT-6: JMP FAR [0x0010] -/
theorem test_V_CT_6 :
    after { State.reset with mem := [(0x2011, 0x1), (0x2013, 0x20)] }
      [0xFF, 0x2E, 0x10, 0x00]
      (fun t => t.segs.cs == 0x2000 && t.ip == 0x0100 && t.flags == 0x2) = true := by
  decide +kernel

/-- V-CT-10: CALL 0x2000:0x1234 -/
theorem test_V_CT_10 :
    after State.reset
      [0x9A, 0x34, 0x12, 0x00, 0x20]
      (fun t => t.regs.sp == 0x00FC && t.segs.cs == 0x2000 && t.ip == 0x1234 && t.flags == 0x2 &&
        t.memRead8 0x20FC == 0x05 && t.memRead8 0x20FD == 0x01 && t.memRead8 0x20FE == 0x00 &&
        t.memRead8 0x20FF == 0x01) = true := by
  decide +kernel

/-- V-CT-11: CALL SP (target read before the push) -/
theorem test_V_CT_11 :
    after { State.reset with regs := { State.reset.regs with sp := 0x100 } }
      [0xFF, 0xD4]
      (fun t => t.regs.sp == 0x00FE && t.ip == 0x0100 && t.flags == 0x2 && t.memRead8 0x20FE == 0x02 &&
        t.memRead8 0x20FF == 0x01) = true := by
  decide +kernel

/-- V-CT-16: RETF 4 -/
theorem test_V_CT_16 :
    after { State.reset with
        regs := { State.reset.regs with sp := 0xF8 }
        mem := [(0x20F8, 0x5), (0x20F9, 0x1), (0x20FB, 0x10)] }
      [0xCA, 0x04, 0x00]
      (fun t => t.regs.sp == 0x0100 && t.segs.cs == 0x1000 && t.ip == 0x0105 && t.flags == 0x2) = true := by
  decide +kernel

/-- V-CT-17: LOOP with CX=0 (taken, CX=0xFFFF) -/
theorem test_V_CT_17 :
    after { State.reset with regs := { State.reset.regs with cx := 0x0 } }
      [0xE2, 0x10]
      (fun t => t.regs.cx == 0xFFFF && t.ip == 0x0112 && t.flags == 0x2) = true := by
  decide +kernel

/-- V-CT-20: LOOPNZ with ZF=1, CX=2 (falls through) -/
theorem test_V_CT_20 :
    after { State.reset with regs := { State.reset.regs with cx := 0x2 }, flags := 0x42 }
      [0xE0, 0x10]
      (fun t => t.regs.cx == 0x0001 && t.ip == 0x0102 && t.flags == 0x42) = true := by
  decide +kernel

/-- V-CT-22: INT 0x21 -/
theorem test_V_CT_22 :
    after { State.reset with
        regs := { State.reset.regs with sp := 0x100 }
        flags := 0x302
        mem := [(0x84, 0x10), (0x87, 0x4)] }
      [0xCD, 0x21]
      (fun t => t.regs.sp == 0x00FA && t.segs.cs == 0x0400 && t.ip == 0x0010 &&
        six t == [false, false, false, false, false, false] && t.flag .tf == false && t.flag .ie == false &&
        t.memRead8 0x20FA == 0x02 && t.memRead8 0x20FB == 0x01 && t.memRead8 0x20FC == 0x00 &&
        t.memRead8 0x20FD == 0x01 && t.memRead8 0x20FE == 0x02 && t.memRead8 0x20FF == 0x03) = true := by
  decide +kernel

/-- V-CT-25: INTO with OF=1 -/
theorem test_V_CT_25 :
    after { State.reset with flags := 0xA02, mem := [(0x10, 0x30), (0x13, 0x4)] }
      [0xCE]
      (fun t => t.regs.sp == 0x00FA && t.segs.cs == 0x0400 && t.ip == 0x0030 &&
        six t == [false, false, false, false, false, true] && t.flag .ie == false &&
        t.memRead8 0x20FA == 0x01 && t.memRead8 0x20FB == 0x01 && t.memRead8 0x20FC == 0x00 &&
        t.memRead8 0x20FD == 0x01 && t.memRead8 0x20FE == 0x02 && t.memRead8 0x20FF == 0x0A) = true := by
  decide +kernel

/-- V-CT-26: IRET (IRET_DELAY = true) -/
theorem test_V_CT_26 :
    after { State.reset with
        regs := { State.reset.regs with sp := 0xFA }
        mem := [(0x20FA, 0x34), (0x20FB, 0x12), (0x20FD, 0x50), (0x20FE, 0x3), (0x20FF, 0xF2)] }
      [0xCF]
      (fun t => t.regs.sp == 0x0100 && t.segs.cs == 0x5000 && t.ip == 0x1234 &&
        six t == [true, false, false, false, false, false] && t.flag .ie == true && t.flags == 0xF203 &&
        t.intDelay == true) = true := by
  decide +kernel

/-- V-PC-3: CMC -/
theorem test_V_PC_3 :
    after { State.reset with flags := 0x3 }
      [0xF5]
      (fun t => t.ip == 0x0101 && six t == [false, false, false, false, false, false]) = true := by
  decide +kernel

/-- V-PC-7: STI (sets the delay) -/
theorem test_V_PC_7 :
    after State.reset
      [0xFB]
      (fun t => t.ip == 0x0101 && six t == [false, false, false, false, false, false] &&
        t.flag .ie == true && t.intDelay == true) = true := by
  decide +kernel

/-- V-PC-13: ES: CS: MOV AL,[BX] (last override wins) -/
theorem test_V_PC_13 :
    after { State.reset with
        regs := { State.reset.regs with bx := 0x0 }
        mem := [(0x1000, 0x22), (0x2000, 0x11)] }
      [0x26, 0x2E, 0x8A, 0x07]
      (fun t => t.regs.ax == 0x0022 && t.ip == 0x0104 && t.flags == 0x2) = true := by
  decide +kernel

/-- V-PC-14: CALLBACK 0x0099 with no registry entry -/
theorem test_V_PC_14 :
    after State.reset
      [0xFE, 0xF8, 0x99, 0x00]
      (fun t => t.ip == 0x0100 && t.flags == 0x2 && t.status == .fault (.unknownCallback 0x0099)) = true := by
  decide +kernel

/-- V-PC-17: FF /7 is undefined -/
theorem test_V_PC_17 :
    after State.reset
      [0xFF, 0xFF]
      (fun t => t.ip == 0x0100 && t.flags == 0x2 &&
        t.status == .fault (.undefinedOpcode [0xFF, 0xFF] 0x100 0x100)) = true := by
  decide +kernel

/-- V-IN-1: NMI pending at the top of a step -/
theorem test_V_IN_1 :
    after { State.reset with nmiPending := true, flags := 0x2, mem := [(0xB, 0x4)] }
      [0x40]
      (fun t => t.regs.sp == 0x00FA && t.segs.cs == 0x0400 && t.ip == 0x0000 && t.flags == 0x2 &&
        t.memRead8 0x20FA == 0x00 && t.memRead8 0x20FB == 0x01 && t.memRead8 0x20FC == 0x00 &&
        t.memRead8 0x20FD == 0x01 && t.memRead8 0x20FE == 0x02 && t.memRead8 0x20FF == 0x00 &&
        t.nmiPending == false) = true := by
  decide +kernel

/-- V-IN-4: INTR pending with IF=1 but int_delay set -/
theorem test_V_IN_4 :
    after { State.reset with
        regs := { State.reset.regs with ax := 0x0 }
        intrPending := true
        intrVector := 0x8
        flags := 0x202
        intDelay := true
        mem := [(0x23, 0x4)] }
      [0x40]
      (fun t => t.regs.ax == 0x0001 && t.ip == 0x0101 && t.flags == 0x202 && t.intDelay == false) = true := by
  decide +kernel

/-- V-IN-6: NMI and INTR both pending: NMI first -/
theorem test_V_IN_6 :
    after { State.reset with
        nmiPending := true
        intrPending := true
        intrVector := 0x8
        flags := 0x202
        mem := [(0xB, 0x4), (0x23, 0x5)] }
      [0x40]
      (fun t => t.regs.sp == 0x00FA && t.segs.cs == 0x0400 && t.ip == 0x0000 &&
        six t == [false, false, false, false, false, false] && t.flag .ie == false &&
        t.memRead8 0x20FA == 0x00 && t.memRead8 0x20FB == 0x01 && t.memRead8 0x20FC == 0x00 &&
        t.memRead8 0x20FD == 0x01 && t.memRead8 0x20FE == 0x02 && t.memRead8 0x20FF == 0x02 &&
        t.nmiPending == false) = true := by
  decide +kernel

/-- V-IN-8: halted CPU, INTR pending, IF=0 -/
theorem test_V_IN_8 :
    after { State.reset with
        halted := true
        intrPending := true
        intrVector := 0x8
        ip := 0x101
        mem := [(0x23, 0x4)] }
      [0x90]
      (fun t => t.ip == 0x0101 && t.flags == 0x2) = true := by
  decide +kernel

/-! ### The PIT and the allocator (spec/95_test_vectors.md 2.8, 1.4, 2.9) -/

/-- Port writes by the host, in order. -/
def portWrites (ws : List (Word × Byte)) (s : State) : State := ws.foldl (fun s w => ioWrite w.1 w.2 s) s

/-- V-PIT-3: count 0x0010 in mode 2 on channel 0. -/
theorem test_V_PIT_3 :
    (portWrites [(0x43, 0x34), (0x40, 0x10), (0x40, 0x00)] State.reset).pit.c0 =
      { Channel.construction with count := 0x0010, reload := 16, ce := 16, active := true, mode := 2, wlow := 0x10 } := by
  decide +kernel

/-- V-PIT-4, V-PIT-5: after 15 cycles nothing, after one more INTR with vector 8. -/
theorem test_V_PIT_5 :
    let s := portWrites [(0x43, 0x34), (0x40, 0x10), (0x40, 0x00)] State.reset
    let t := hostAct (.runPit 15) s
    let u := hostAct (.runPit 1) t
    t.intrPending = false ∧ t.pit.c0.ce = 1 ∧ u.intrPending = true ∧ u.intrVector = 8 ∧ u.pit.c0.ce = 16 := by
  decide +kernel

/-- V-PIT-7: the latched value 8 is read although three cycles pass. -/
theorem test_V_PIT_7 :
    let s := hostAct (.runPit 8) (portWrites [(0x43, 0x34), (0x40, 0x10), (0x40, 0x00)] State.reset)
    let t := hostAct (.runPit 3) (portWrites [(0x43, 0x00)] s)
    let u := ioReadState 0x40 t
    ioReadByte 0x40 t = 0x08 ∧ ioReadByte 0x40 u = 0x00 ∧ (ioReadState 0x40 u).pit.c0.ce = 5 := by
  decide +kernel

/-- A chain written header by header: segment, signature, owner, size. -/
def chain (hs : List (Nat × Byte × Word × Nat)) : State :=
  hs.foldl (fun s h => setMcb s h.1 h.2.1 h.2.2.1 h.2.2.2) State.reset

/-- The chain of V-MCB-1 to V-MCB-3. -/
def chain5 : State :=
  chain [(0x1000, 0x4D, 0, 10), (0x100B, 0x4D, 0x50, 2), (0x100E, 0x4D, 0, 4), (0x1013, 0x4D, 0x50, 2), (0x1016, 0x5A, 0, 20)]

/-- V-MCB-1: first fit. -/
theorem test_V_MCB_1 :
    let t := hostAct (.mcb (.allocate 4 .firstFit 0x60)) chain5
    t.mcbResult = some (.ok 0x1001) ∧ mcbOwner t 0x1000 = 0x60 ∧ mcbSize t 0x1000 = 4 ∧ mcbOwner t 0x1005 = 0 ∧
      mcbSize t 0x1005 = 5 := by decide +kernel

/-- V-MCB-2: best fit. -/
theorem test_V_MCB_2 :
    let t := hostAct (.mcb (.allocate 4 .bestFit 0x60)) chain5
    t.mcbResult = some (.ok 0x100F) ∧ mcbOwner t 0x100E = 0x60 ∧ mcbSize t 0x1000 = 10 := by decide +kernel

/-- V-MCB-3: last fit splits the tail. -/
theorem test_V_MCB_3 :
    let t := hostAct (.mcb (.allocate 4 .lastFit 0x60)) chain5
    t.mcbResult = some (.ok 0x1027) ∧ mcbSig t 0x1016 = 0x4D ∧ mcbSize t 0x1016 = 15 ∧ mcbSig t 0x1026 = 0x5A ∧
      mcbOwner t 0x1026 = 0x60 ∧ mcbSize t 0x1026 = 4 := by decide +kernel

/-- V-MCB-8: Reallocate coalesces forward, then shrinks. -/
theorem test_V_MCB_8 :
    let t := hostAct (.mcb (.reallocate 0x1001 8)) (chain [(0x1000, 0x4D, 0x60, 32), (0x1021, 0x5A, 0, 222)])
    t.mcbResult = some (.ok 0x1001) ∧ mcbSize t 0x1000 = 8 ∧ mcbSig t 0x1009 = 0x5A ∧ mcbSize t 0x1009 = 246 := by
  decide +kernel

/-- V-MCB-7's coalescing by itself (R756), and a header with no valid signature (R751). -/
theorem test_mcb_coalesce :
    let s := chain [(0x1000, 0x4D, 0, 16), (0x1011, 0x5A, 0, 238)]
    let t := hostAct (.mcb (.coalesce 0x1000)) s
    mcbSig t 0x1000 = 0x5A ∧ mcbSize t 0x1000 = 255 ∧ t.mcbResult = none ∧
      (hostAct (.mcb (.coalesce 0x1010)) s).status = .fault (.mcbCorrupt 0x1010) := by decide +kernel


/-- V-MCB-19: a bad signature ends the machine. -/
theorem test_V_MCB_19 :
    let t := hostAct (.mcb (.allocate 1 .firstFit 0x60)) (chain [(0x1000, 0x4D, 0x50, 16), (0x1011, 0x41, 0, 0)])
    t.mcbResult = some (.corrupt 0x1011) ∧ t.status = .fault (.mcbCorrupt 0x1011) := by decide +kernel

/-- V-MCB-12: the largest free block is reported. -/
theorem test_V_MCB_12 :
    (hostAct (.mcb (.allocate 25 .bestFit 0x60)) chain5).mcbResult = some (.outOfMemory 20) := by decide +kernel

/-! ### Witnesses: states and operands that meet the hypotheses of the statements -/

/-- A state that differs from reset in AX, BX, CX, DX, SP, BP, SI and DI. -/
def busy : State :=
  { State.reset with
    regs := { ax := 0x80FF, cx := 0x0003, dx := 0x0040, bx := 0xFFF0, sp := 0x0001, bp := 0x0010, si := 0xFFFF, di := 0x0008 }
    flags := 0xF2D7 }

/-- `s` with `code` at CS:IP. -/
def loaded (s : State) (code : List Byte) : State := s.writeBytes s.segs.cs s.ip code

theorem witness_DecodeInvertsEncode : (Instr.addEvIv (.mem (.disp16 .bpSi 0x8000)) 0xFFFF).wf = true := by decide

theorem witness_EncodeInvertsDecode : decode [0x26, 0x90] = .ok (.segEs, [0x90]) := rfl

theorem witness_SixBytesDecode : 6 ≤ ([0xC7, 0x87, 0x34, 0x12, 0x78, 0x56] : List Byte).length := by decide

theorem witness_UndefinedExactly : 4 ≤ ([0x00, 0x00, 0x00, 0x00] : List Byte).length := by decide

theorem witness_Fetches : Fetches (loaded State.reset [0x90]) := ⟨rfl, rfl, .inl rfl, .inl rfl, .inl rfl, rfl⟩

/-- Everything pending, held off by the delay flag. -/
theorem witness_Fetches_delay :
    Fetches { State.reset with
      nmiPending := true, intrPending := true, trapPending := true, intDelay := true, flags := 0x0302
      params := { Params.defaults with singleStep := true } } :=
  ⟨rfl, rfl, .inr rfl, .inr (.inl rfl), .inr (.inr rfl), rfl⟩

/-- INTR masked by IF = 0. -/
theorem witness_Fetches_masked : Fetches { State.reset with intrPending := true, trapPending := true } :=
  ⟨rfl, rfl, .inl rfl, .inr (.inr (by decide)), .inl rfl, rfl⟩

theorem witness_StepRunsDecoded :
    ∃ rest, decode (fetched (loaded State.reset [0xB8, 0x34, 0x12])) = .ok (.movAxIv 0x1234, rest) ∧
      (Instr.movAxIv 0x1234).isPrefix = false := ⟨_, rfl, rfl⟩

theorem witness_PrefixLoopsBack :
    (∃ rest, decode (fetched (loaded State.reset [0xF3, 0xA4])) = .ok (.rep, rest) ∧ Instr.rep.isPrefix = true) ∧
      ∃ rest, decode (fetched (loaded State.reset [0xA4])) = .ok (.movsb, rest) ∧ Instr.movsb.isPrefix = false :=
  ⟨⟨_, rfl, rfl⟩, ⟨_, rfl, rfl⟩⟩

/-- Prefix bytes 26 from address `a` on. -/
def prefixBytes (a : Nat) : Nat → Memory
  | 0 => []
  | n + 1 => (a, 0x26) :: prefixBytes (a + 1) n

theorem read_prefixBytes (n a b : Nat) (h : a ≤ b) (h' : b < a + n) : (prefixBytes a n).read b = 0x26 := by
  induction n generalizing a with
  | zero => omega
  | succ n ih =>
    simp only [prefixBytes, Memory.read]
    split
    · rfl
    · exact ih (a + 1) (by omega) (by omega)

theorem witness_PrefixHangs : ∃ s : State, Fetches s ∧ s.tr = .none ∧
    ∀ off : Word, s.segRead8 s.segs.cs off ∈ ([0x26, 0x2E, 0x36, 0x3E, 0xF0, 0xF2, 0xF3] : List Byte) := by
  refine ⟨{ State.reset with mem := prefixBytes 0 Config.memSize }, ⟨rfl, rfl, .inl rfl, .inl rfl, .inl rfl, rfl⟩, rfl, ?_⟩
  intro off
  have h : (prefixBytes 0 Config.memSize).read (phys 0x0100 off) = 0x26 :=
    read_prefixBytes _ _ _ (Nat.zero_le _) (by rw [Nat.zero_add]; exact Nat.mod_lt _ (by decide))
  exact List.mem_cons.mpr (.inl h)

theorem witness_InterruptSampling_nmi :
    let s := { State.reset with nmiPending := true, halted := true }
    s.status = .running ∧ s.sched = [] ∧ s.tr = .none ∧ s.nmiPending = true ∧ s.intDelay = false := by decide

theorem witness_InterruptSampling_intr :
    let s := { State.reset with intrPending := true, flags := 0x0202 }
    s.nmiPending = false ∧ s.intrPending = true ∧ s.intDelay = false ∧ ie s.flags = true := by decide

theorem witness_InterruptSampling_trap :
    let s :=
      { State.reset with intrPending := true, trapPending := true, params := { Params.defaults with singleStep := true } }
    s.nmiPending = false ∧ (s.intrPending = false ∨ ie s.flags = false) ∧ s.params.singleStep = true ∧
      s.trapPending = true ∧ s.intDelay = false := by decide

theorem witness_InterruptSampling_halted :
    let s := { State.reset with halted := true, nmiPending := true, intDelay := true }
    let t := { State.reset with halted := true, intrPending := true, trapPending := true }
    (s.halted = true ∧ s.intDelay = true) ∧ t.halted = true ∧ t.nmiPending = false ∧
      (t.intrPending = false ∨ ie t.flags = false) ∧ (t.params.singleStep = false ∨ t.trapPending = false) := by decide

theorem witness_EndedMachineStops :
    ({ State.reset with status := .fault .prefixHang } : State).status = .fault .prefixHang ∧
      ({ State.reset with status := .exited 0xFFFF } : State).status = .exited 0xFFFF ∧
      State.reset.status = .running := ⟨rfl, rfl, rfl⟩

theorem witness_HostActions :
    let s : State := { State.reset with sched := [.host .raiseNmi, .cpu] }
    s.status = .running ∧ s.sched = .host .raiseNmi :: [.cpu] := ⟨rfl, rfl⟩

/-- Every row of R163 and its ends. -/
theorem witness_HostActions_ports :
    (∀ port ∈ ([0x0040, 0x0043, 0x005F] : List Word), 0x40 ≤ port.toNat ∧ port.toNat ≤ 0x5F) ∧
      (∀ port ∈ ([0x0060, 0x0064, 0x03C0, 0x03DF] : List Word),
        (0x60 ≤ port.toNat ∧ port.toNat ≤ 0x64) ∨ (0x3C0 ≤ port.toNat ∧ port.toNat ≤ 0x3DF)) ∧
      ∀ port ∈ ([0x0000, 0x003F, 0x0065, 0x03BF, 0x03E0, 0xFFFF] : List Word),
        port.toNat < 0x40 ∨ (0x64 < port.toNat ∧ port.toNat < 0x3C0) ∨ 0x3DF < port.toNat := by simp

/-- A host turn writes a vector-table entry and no other: vector FF is the last. -/
theorem test_install_vector :
    let t := hostAct (.installVector 0xFF 0x1234 0xF000) State.reset
    t.mem = [(0x3FC, 0x34), (0x3FD, 0x12), (0x3FF, 0xF0)] := by decide +kernel

theorem witness_HostActions_registry :
    let r : Registry := [(0x0001, 4), (0xFFFE, 5)]
    (0x0001 : Word) ≠ 0xFFFF ∧ r.Pairwise (fun x y => x.1.toNat < y.1.toNat) := by decide

theorem witness_StepKeepsInvariant :
    (∃ t, Machine.step (loaded State.reset [0x50]) = .next t) ∧ Inv (loaded State.reset [0x50]) := by
  refine ⟨⟨_, rfl⟩, ⟨by decide +kernel, ?_, ?_, ?_, rfl, by decide⟩⟩ <;> exact ⟨rfl, by decide, by decide⟩

/-- An active channel within its range. -/
theorem witness_ChannelInv :
    ChannelInv { Channel.construction with count := 0x0010, reload := 16, ce := 16, active := true } ∧
      ChannelInv { Channel.construction with reload := 65536, ce := 65536, active := true } ∧
      ChannelInv Channel.construction :=
  ⟨⟨rfl, by decide, by decide⟩, ⟨rfl, by decide, by decide⟩, ⟨rfl, by decide, by decide⟩⟩

/-- The word at DS:FFFF is stored at two addresses; all others are outside. -/
theorem witness_MemoryFrame :
    (∃ t, exec (.movOvAx 0xFFFF) busy = .next t) ∧ stored busy (.movOvAx 0xFFFF) = [0x11FFF, 0x12000] ∧
      0x11FFE ∉ stored busy (.movOvAx 0xFFFF) ∧ 0x02000 ∉ stored busy (.movOvAx 0xFFFF) := by
  exact ⟨⟨_, rfl⟩, by decide, by decide, by decide⟩

/-- Three pushes with SP = 0001 wrap within the segment. -/
theorem witness_MemoryFrame_int :
    (∃ t, exec (.intIb 0x21) busy = .next t) ∧
      stored busy (.intIb 0x21) = [0x11FFF, 0x12000, 0x11FFD, 0x11FFE, 0x11FFB, 0x11FFC] := ⟨⟨_, rfl⟩, by decide⟩

theorem witness_RegisterFrame :
    (∃ t, exec (.xchgEbGb (.reg .ah) .bl) busy = .next t) ∧ isCallback (.xchgEbGb (.reg .ah) .bl) = false ∧
      Reg16.cx ∉ wordRegs busy (.xchgEbGb (.reg .ah) .bl) ∧
      (∀ q ∈ byteRegs busy (.xchgEbGb (.reg .ah) .bl), Reg8.home q ≠ .cx) ∧
      Reg8.al ∉ byteRegs busy (.xchgEbGb (.reg .ah) .bl) ∧ Reg8.home .al ∉ wordRegs busy (.xchgEbGb (.reg .ah) .bl) ∧
      SegReg.cs ∉ segRegs busy (.xchgEbGb (.reg .ah) .bl) := by
  exact ⟨⟨_, rfl⟩, rfl, by decide, by decide, by decide, by decide, by decide⟩

theorem witness_FlagsFrame :
    (∃ t, exec (.incEv (.reg .sp)) busy = .next t) ∧ 0 ∉ flagBits busy (.incEv (.reg .sp)) ∧
      Instr.incEv (.reg .sp) ≠ .popf ∧ Instr.incEv (.reg .sp) ≠ .iret := by
  exact ⟨⟨_, rfl⟩, by decide, by decide, by decide⟩

theorem witness_SystemFrame :
    (∃ t, exec .hlt busy = .next t) ∧ isCallback .hlt = false ∧ isUd .hlt = false ∧ accessesPort .hlt = false :=
  ⟨⟨_, rfl⟩, rfl, rfl, rfl⟩

theorem witness_WriteOperand :
    (3 : BitVec 3).toNat < 4 ∧ 4 ≤ (4 : BitVec 3).toNat ∧ Reg8.ah ≠ .al ∧ Reg16.bx ≠ Reg8.home .al := by decide

theorem witness_EffectiveAddress :
    busy.tr.segOvr = none ∧ ({ busy with tr := { busy.tr with segOvr := some .cs } } : State).tr.segOvr = some .cs :=
  ⟨rfl, rfl⟩

theorem witness_AddAndAdc :
    Binary8 busy .add (.addEbIb82 (.mem (.base .bxSi)) 0x80) (rm8 busy (.mem (.base .bxSi))) (.imm 0x80) ∧
      Binary16 busy .adc (.adcEvIb (.reg .sp) 0xFF) (rm16 busy (.reg .sp)) (.imm (BitVec.signExtend 16 (0xFF : Byte))) :=
  ⟨.addEbIb82 _ _, .adcEvIb _ _⟩

theorem witness_SubSbbCmp :
    Binary8 busy .sub (.subAlIb 0x01) (.reg .al) (.imm 0x01) ∧
      Binary16 busy .sbb (.sbbGvEv (.mem (.disp8 .bp 0x80)) .dx) (.reg .dx) (rm16 busy (.mem (.disp8 .bp 0x80))) ∧
      Binary8 busy .cmp (.cmpEbGb (.reg .ch) .ch) (rm8 busy (.reg .ch)) (.reg .ch) :=
  ⟨.subAlIb _, .sbbGvEv _ _, .cmpEbGb _ _⟩

theorem witness_LogicAndTest :
    Binary8 busy .and (.andAlIb 0x0F) (.reg .al) (.imm 0x0F) ∧
      Binary8 busy .or (.orGbEb (.reg .bh) .bl) (.reg .bl) (rm8 busy (.reg .bh)) ∧
      Binary8 busy .xor (.xorEbGb (.reg .al) .al) (rm8 busy (.reg .al)) (.reg .al) ∧
      Test8 busy (.testAlIb 0x80) (.reg .al) (.imm 0x80) ∧
      Binary16 busy .and (.andAxIv 0xFFFF) (.reg .ax) (.imm 0xFFFF) ∧
      Binary16 busy .or (.orAxIv 0x8000) (.reg .ax) (.imm 0x8000) ∧
      Binary16 busy .xor (.xorEvGv (.reg .ax) .ax) (rm16 busy (.reg .ax)) (.reg .ax) ∧
      Test16 busy (.testEvIv (.mem (.direct 0)) 1) (rm16 busy (.mem (.direct 0))) (.imm 1) :=
  ⟨.andAlIb _, .orGbEb _ _, .xorEbGb _ _, .testAlIb _, .andAxIv _, .orAxIv _, .xorEvGv _ _, .testEvIv _ _⟩

theorem witness_IncAndDec :
    IncDec8 busy true (.incEb (.reg .al)) (rm8 busy (.reg .al)) ∧
      IncDec8 busy false (.decEb (.mem (.base .si))) (rm8 busy (.mem (.base .si))) ∧
      IncDec16 busy true .incSp (.reg .sp) ∧ IncDec16 busy false (.decEv (.reg .si)) (rm16 busy (.reg .si)) :=
  ⟨.incEb _, .decEb _, .incSp, .decEv _⟩

theorem witness_CarryAndOverflowMeaning : 5 ≤ 8 := by decide

/-- Quotients at the ends of their ranges: 255 (DIV), 65535 (DIV), -127 and 127 (IDIV), -32767 (IDIV). -/
theorem witness_Divide :
    divideErrors { busy with regs := { busy.regs with ax := 0xFEFF, bx := 0xFF00 } } (.divEb (.reg .bh)) = false ∧
      divideErrors { busy with regs := { busy.regs with dx := 1, ax := 0xFFFF, bx := 2 } } (.divEv (.reg .bx)) = false ∧
      divideErrors { busy with regs := { busy.regs with ax := 0xFF81, bx := 1 } } (.idivEb (.reg .bl)) = false ∧
      divideErrors { busy with regs := { busy.regs with ax := 0x007F, bx := 1 } } (.idivEb (.reg .bl)) = false ∧
      divideErrors { busy with regs := { busy.regs with dx := 0xFFFF, ax := 0x8001, bx := 1 } } (.idivEv (.reg .bx))
        = false := by decide +kernel

/-- A zero divisor or base; quotients one past the ends: 256, 65536, -128 (while `IDIV_MIN_QUOTIENT_FAULTS`), 128, -32768. -/
theorem witness_DivideErrors :
    divideErrors { busy with regs := { busy.regs with bx := 0 } } (.divEb (.reg .bl)) = true ∧
      divideErrors { busy with regs := { busy.regs with ax := 0x0200, bx := 2 } } (.divEb (.reg .bl)) = true ∧
      divideErrors { busy with regs := { busy.regs with dx := 2, ax := 0, bx := 2 } } (.divEv (.reg .bx)) = true ∧
      divideErrors { busy with regs := { busy.regs with ax := 0xFF80, bx := 1 } } (.idivEb (.reg .bl)) = true ∧
      divideErrors { busy with regs := { busy.regs with ax := 0x0080, bx := 1 } } (.idivEb (.reg .bl)) = true ∧
      divideErrors { busy with regs := { busy.regs with dx := 0xFFFF, ax := 0x8000, bx := 1 } } (.idivEv (.reg .bx))
        = true ∧
      divideErrors busy (.aamIb 0) = true := by decide +kernel

theorem witness_DecimalInstructions : (0x01 : Byte) ≠ 0 ∧ (0xFF : Byte) ≠ 0 := by decide

/-- Counts 0, 1, 3 and 255. -/
theorem witness_ShiftsAndRotates :
    Shift8 { busy with regs := { busy.regs with cx := 0xFF00 } } .shl (.shlEbCl (.reg .al)) 0
        (rm8 { busy with regs := { busy.regs with cx := 0xFF00 } } (.reg .al)) ∧
      Shift8 busy .ror (.rorEb1 (.mem (.base .bx))) 1 (rm8 busy (.mem (.base .bx))) ∧
      Shift16 busy .rcl (.rclEvCl (.reg .cx)) 3 (rm16 busy (.reg .cx)) ∧
      Shift16 { busy with regs := { busy.regs with cx := 0x00FF } } .sar (.sarEvCl (.reg .di)) 255
        (rm16 { busy with regs := { busy.regs with cx := 0x00FF } } (.reg .di)) :=
  ⟨.shlEbCl _, .rorEb1 _, .rclEvCl _, .sarEvCl _⟩

theorem witness_MovForms :
    Mov8 busy (.movObAl 0xFFFF) (.mem (segOr busy .ds) 0xFFFF) (.reg .al) ∧
      Mov16 busy (.movEwSw (.reg .ax) .cs) (rm16 busy (.reg .ax)) (.imm (busy.sreg .cs)) := ⟨.movObAl _, .movEwSw _ _⟩

theorem witness_PushForms :
    Pushes busy .pushSp (busy.regs.sp - 2) ∧ Pushes busy (.pushEv (.reg .sp)) (busy.regs.sp - 2) ∧
      Pushes busy (.pushEv (.reg .bp)) (busy.readOp16 (rm16 busy (.reg .bp))) ∧ Pushes busy .pushf busy.flags :=
  ⟨.pushSp, .pushSpEv, .pushEv _ (by decide), .pushf⟩

theorem witness_PopForms :
    Pops busy .popSp (.reg .sp) ∧ Pops busy (.popEv (.mem (.base .bx))) (rm16 busy (.mem (.base .bx))) ∧
      rm16 busy (.mem (.base .bx)) ≠ .reg .sp := ⟨.popSp, .popEv _, by decide⟩

theorem witness_Exchange :
    Xchg16 busy (.xchgEvGv (.reg .ax) .ax) (rm16 busy (.reg .ax)) (.reg .ax) ∧
      Xchg16 busy .xchgSpAx (.reg .ax) (.reg .sp) := ⟨.xchgEvGv _ _, .xchgSpAx⟩

theorem witness_InAndOut :
    (0x00FF : Word).toNat = (0xFF : Byte).toNat ∧
      ({ busy with regs := { busy.regs with dx := 0xFFFF } } : State).regs.dx = 0xFFFF := ⟨rfl, rfl⟩

/-- The first and last port of each owner, and their neighbours. -/
theorem witness_PortRouting :
    (0x40 ≤ (0x0040 : Word).toNat ∧ (0x005F : Word).toNat ≤ 0x5F) ∧
      (0x60 ≤ (0x0060 : Word).toNat ∧ (0x0064 : Word).toNat ≤ 0x64) ∧
      (0x3C0 ≤ (0x03C0 : Word).toNat ∧ (0x03DF : Word).toNat ≤ 0x3DF) ∧
      ∀ p ∈ ([0x0000, 0x003F, 0x0065, 0x03BF, 0x03E0, 0xFFFF] : List Word),
        ¬(0x40 ≤ p.toNat ∧ p.toNat ≤ 0x64) ∧ ¬(0x3C0 ≤ p.toNat ∧ p.toNat ≤ 0x3DF) := by simp

/-- No prefix; a repeat with CX = 0; one that ends by its condition; one that goes on. -/
theorem witness_StringInstructions :
    Instr.cmpsb ∈ stringInstrs ∧ busy.tr.rep = none ∧
      (let s : State := { busy with regs := { busy.regs with cx := 0 }, tr := { busy.tr with rep := some .rep } }
       s.tr.rep = some .rep ∧ s.regs.cx = 0) ∧
      (let t : State := { busy with flags := 0 }
       repeatEnds .cmpsb .rep t ∧ ¬ repeatEnds .cmpsb .repne t ∧ ¬ repeatEnds .movsb .rep t) := by
  refine ⟨by decide, rfl, ⟨rfl, rfl⟩, ?_⟩
  simp only [repeatEnds]
  decide

/-- JG taken and not taken. -/
theorem witness_ConditionalJumps :
    Jcc 0x0882 (.jgJb 0x80) 0x80 (zf 0x0882 = false ∧ sf 0x0882 = ovf 0x0882) ∧
      (zf 0x0882 = false ∧ sf 0x0882 = ovf 0x0882) ∧ ¬ (zf 0x0802 = false ∧ sf 0x0802 = ovf 0x0802) :=
  ⟨.jg _ _, by decide, by decide⟩

/-- An 8-bit and a 16-bit form. -/
theorem witness_ConditionsAfterCompare :
    Binary8 busy .cmp (.cmpEbIb82 (.reg .ah) 0x80) (.reg .ah) (.imm 0x80) ∧
      Binary16 busy .cmp (.cmpEvIb (.reg .ax) 0xFF) (.reg .ax) (.imm 0xFFFF) :=
  ⟨.cmpEbIb82 _ _, .cmpEvIb _ _⟩

theorem witness_InterruptInstructions : ovf 0x0802 = true ∧ ovf 0x0002 = false := by decide

theorem witness_PrefixesRecord :
    ∀ i ∈ [Instr.segEs, .lock, .repne, .segCs, .rep, .segSs, .segDs], i.isPrefix = true := by decide

theorem witness_TrapOpcodes :
    State.reset.registry.find 0x0099 = none ∧ Registry.find [(0x0098, 1), (0x0099, 2)] 0x0099 = some 2 := by decide

/-- Control words: SC = 3; SC = 0 and RW = 0; SC = 2 and RW = 3. -/
theorem witness_PitWrites :
    ((0xF0 : Byte).toNat / 64 = 3 ∧ (0xF0 : Byte).toNat / 16 % 4 = 3) ∧
      ((0x00 : Byte).toNat / 64 = 0 ∧ (0x00 : Byte).toNat / 16 % 4 = 0) ∧
      ((0xB6 : Byte).toNat / 64 = 2 ∧ (0xB6 : Byte).toNat / 16 % 4 = 3) ∧
      (Pit.construction.channel 2).access = .lsbMsb ∧ (Pit.construction.channel 2).wtoggle = false := by decide

theorem witness_PitLatchedRead :
    let c : Channel := { Channel.construction with latched := true, latch := 0x1234, active := true, ce := 1 }
    c.access = .lsbMsb ∧ c.rtoggle = false ∧ c.latched = true ∧ { c with rtoggle := true }.rtoggle = true ∧
      (∃ d : Channel, d.access = .lsb) ∧ ∃ d : Channel, d.access = .msb :=
  ⟨rfl, rfl, rfl, rfl, ⟨{ Channel.construction with access := .lsb }, rfl⟩, { Channel.construction with access := .msb }, rfl⟩

/-- One cycle short of zero, and exactly to zero. -/
theorem witness_PitRunCycles :
    let c : Channel := { Channel.construction with count := 0x0010, reload := 16, ce := 16, active := true }
    c.active = true ∧ 15 < c.ce ∧ c.ce ≤ 16 ∧ Channel.construction.active = false := by decide

/-- The boot chain of 255 paragraphs. -/
theorem witness_McbAllocate :
    SingleFree (hostAct (.mcb .boot) State.reset) 255 ∧
      (hostAct (.mcb .boot) State.reset).params.mcbBase.toNat + 1 + 255 ≤ 65536 ∧ (0x0050 : Word) ≠ 0 ∧
      255 < (0x0100 : Word).toNat ∧ (0x00FF : Word).toNat ≤ 255 ∧ (0x00FE : Word).toNat < 255 := by
  exact ⟨⟨by decide +kernel, by decide +kernel, by decide +kernel⟩, by decide, by decide, by decide, by decide, by decide⟩

/-- Rows V-MCB-1 to V-MCB-3 of spec/95_test_vectors.md start from this chain. -/
theorem witness_McbAllocate_chain :
    Chain chain5 chain5.params.mcbBase.toNat [⟨0, 10⟩, ⟨0x50, 2⟩, ⟨0, 4⟩, ⟨0x50, 2⟩, ⟨0, 20⟩] := by
  refine ⟨?_, ?_, ?_, ⟨?_, ?_, ?_, ⟨?_, ?_, ?_, ⟨?_, ?_, ?_, ⟨?_, ?_, ?_, show _ ≤ _ from ?_⟩⟩⟩⟩⟩ <;> decide +kernel

theorem witness_McbResults :
    (State.reset.params.mcbBase.toNat + 1 ≤ State.reset.params.mcbTop.toNat ∧ State.reset.params.mcbTop.toNat ≤ 65536) ∧
      (hostAct (.mcb (.free 0x1001)) (hostAct (.mcb .boot) State.reset)).mcbResult = some (.ok 0x1001) ∧
      (hostAct (.mcb (.free 0x1051)) (hostAct (.mcb .boot) State.reset)).mcbResult = some (.corrupt 0x1050) ∧
      mcbSig State.reset (0x1051 - 1 : Word).toNat ≠ 0x4D ∧ mcbSig State.reset (0x1051 - 1 : Word).toNat ≠ 0x5A := by
  decide +kernel

/-- The block at 0x1000 (Coalesce), and the block at 0x1000 with an owned and a free block behind it (Free, Reallocate). -/
theorem witness_McbChainOperations :
    let s := chain [(0x1000, 0x4D, 0x60, 4), (0x1005, 0x4D, 0, 4), (0x100A, 0x5A, 0x50, 5)]
    Chain s (0x1000 : Word).toNat (⟨0x60, 4⟩ :: [⟨0, 4⟩, ⟨0x50, 5⟩]) ∧
      Chain s s.params.mcbBase.toNat ([] ++ ⟨0x60, 4⟩ :: [⟨0, 4⟩, ⟨0x50, 5⟩]) ∧
      (0x1001 : Word).toNat = s.params.mcbBase.toNat + span [] + 1 := by
  intro s
  have h : Chain s 0x1000 [⟨0x60, 4⟩, ⟨0, 4⟩, ⟨0x50, 5⟩] := by
    refine ⟨?_, ?_, ?_, ⟨?_, ?_, ?_, ⟨?_, ?_, ?_, show _ ≤ _ from ?_⟩⟩⟩ <;> decide +kernel
  exact ⟨h, h, by decide⟩

/-! ### The end of a run (R906, U17) -/

/-- A launch with two bytes of code at CS:IP. -/
def launchedWith (b c : Byte) : State :=
  State.launch { Launch.conventions with mem := [(0x1100, b), (0x1101, c)] } Params.defaults []

theorem test_jump_to_itself : Safety.move .cpu (launchedWith 0xEB 0xFE) = .next (launchedWith 0xEB 0xFE) :=
  Safety.perform_singleton.1 (by decide +kernel)

/-- EB FE jumps to itself: a run of CPU steps from launch that never ends. -/
theorem test_endless_jump_hangs :
    let e : Safety.Execution := { states := fun _ => launchedWith 0xEB 0xFE, turns := fun _ => .cpu }
    e.Valid ∧ e.Fair ∧ e.Hangs := by
  refine ⟨⟨⟨_, _, _, [], 0, 0, by decide, rfl⟩, fun _ => test_jump_to_itself⟩, ⟨fun n => ⟨n, Nat.le_refl n, rfl⟩, ?_⟩, ?_⟩
  · intro n h; exact absurd (h n (Nat.le_refl n)) (show ¬ (launchedWith 0xEB 0xFE).pit.c0.active = true by decide)
  · rintro n (⟨c, h⟩ | h)
    · exact absurd h (by simp [launchedWith, State.launch])
    · exact absurd (h n (Nat.le_refl n)).1.2.1 (show ¬ (launchedWith 0xEB 0xFE).halted = true by decide)

/-- The state after HLT with IF = 0. -/
def haltedQuietly : State := { launchedWith 0xF4 0x90 with ip := 0x0101, halted := true }

theorem test_halt : Safety.move .cpu (launchedWith 0xF4 0x90) = .next haltedQuietly :=
  Safety.perform_singleton.1 (by decide +kernel)

theorem test_halted : Safety.move .cpu haltedQuietly = .next haltedQuietly :=
  Safety.perform_singleton.1 (by decide +kernel)

theorem haltedQuietly_quiescent : Safety.QuiescentHalt haltedQuietly := by
  unfold Safety.QuiescentHalt
  decide

/-- HLT with IF = 0 and no host action after it: a successful end. -/
theorem test_halt_ends :
    let e : Safety.Execution :=
      { states := fun n => if n = 0 then launchedWith 0xF4 0x90 else haltedQuietly, turns := fun _ => .cpu }
    e.Valid ∧ e.EndsAt 1 ∧ Safety.Run [.cpu] haltedQuietly ∧ Safety.EndedSuccessfully haltedQuietly := by
  have hl : Safety.Launched (launchedWith 0xF4 0x90) := ⟨_, _, _, [], 0, 0, by decide, rfl⟩
  refine ⟨⟨hl, fun n => ?_⟩, .inr fun m hm => ?_, ⟨_, hl, ?_⟩, .inr ⟨haltedQuietly_quiescent, by decide⟩⟩
  · cases n
    · exact test_halt
    · exact test_halted
  · refine ⟨?_, rfl⟩
    dsimp only
    rw [if_neg (Nat.one_le_iff_ne_zero.1 hm)]
    exact haltedQuietly_quiescent
  · exact Safety.perform_singleton.2 test_halt

/-- The same halt is no end where the host's NMI follows. -/
theorem test_halt_before_nmi_is_no_end :
    ¬ Safety.EndedSuccessfully { haltedQuietly with sched := [.host .raiseNmi] } := by
  rintro (⟨c, h⟩ | ⟨-, h⟩)
  · exact absurd h (by simp [haltedQuietly, launchedWith, State.launch])
  · exact absurd (h _ (List.mem_cons_self ..)) (by decide)

/-- R828, R902: a boot that writes 36 to port 43 and 00, 00 to port 40 launches with channel 0 counting from 65536. -/
theorem test_boot_programs_pit :
    (Safety.bootWrites [(0x43, 0x36), (0x40, 0), (0x40, 0)] State.reset).pit.c0 =
      { Channel.construction with reload := 65536, ce := 65536, active := true, mode := 3 } := by decide

end Sys2Proof.Tests
end

section
/-! SUPPORT. Operands (R15, R152, R153): what the halves of the general registers are in numbers, and what a byte of memory
holds after an operand is written. -/

namespace Sys2Proof.Proofs

open Sys2Proof.Machine

/-- R52: 8-bit registers 0 to 3 are the low halves of AX, CX, DX and BX. -/
theorem reg8_ofIdx_low (s : State) (i : BitVec 3) (h : i.toNat < 4) :
    (s.reg8 (Reg8.ofIdx i)).toNat = (s.reg16 (Reg16.ofIdx i)).toNat % 256 := by
  have half : Reg8.home (Reg8.ofIdx i) = Reg16.ofIdx i ∧ Reg8.isHigh (Reg8.ofIdx i) = false := by
    revert i; decide
  simp [State.reg8, State.reg16, Regs.get8, half, loByte_toNat]

/-- R52: 8-bit registers 4 to 7 are the high halves of AX, CX, DX and BX. -/
theorem reg8_ofIdx_high (s : State) (i : BitVec 3) (h : 4 ≤ i.toNat) :
    (s.reg8 (Reg8.ofIdx i)).toNat = (s.reg16 (Reg16.ofIdx (i - 4))).toNat / 256 := by
  have half : Reg8.home (Reg8.ofIdx i) = Reg16.ofIdx (i - 4) ∧ Reg8.isHigh (Reg8.ofIdx i) = true := by
    revert i; decide
  simp [State.reg8, State.reg16, Regs.get8, half, hiByte_toNat]

theorem memRead16_toNat (s : State) (a : Nat) :
    (s.memRead16 a).toNat = (s.memRead8 a).toNat + 256 * (s.memRead8 (nextPhys a)).toNat := by
  rw [memRead16_eq, mkWord_toNat, Nat.add_comm]

/-- A word write in numbers: the low byte at `a`, the high byte at the next address. -/
theorem memRead8_memWrite16_ofNat (s : State) (a b : Nat) (v : Word) :
    (s.memWrite16 a v).memRead8 b =
      if b = a then BitVec.ofNat 8 v.toNat else if b = nextPhys a then BitVec.ofNat 8 (v.toNat / 256) else s.memRead8 b := by
  rw [memRead8_memWrite16, loByte_eq, hiByte_eq]

theorem writeOp8_reg (s : State) (r : Reg8) (v : Byte) :
    (s.writeOp8 v (.reg r)).reg8 r = v ∧ (∀ q, q ≠ r → (s.writeOp8 v (.reg r)).reg8 q = s.reg8 q) ∧
      ∀ q, q ≠ Reg8.home r → (s.writeOp8 v (.reg r)).reg16 q = s.reg16 q :=
  ⟨(Regs.get8_set8 s.regs r r v).trans (if_pos rfl), fun q h => (Regs.get8_set8 s.regs r q v).trans (if_neg h),
    fun q h => Regs.get_set8 s.regs r q v h⟩

theorem writeOp16_reg (s : State) (r : Reg16) (v : Word) :
    (s.writeOp16 v (.reg r)).reg16 r = v ∧ ∀ q, q ≠ r → (s.writeOp16 v (.reg r)).reg16 q = s.reg16 q :=
  ⟨(Regs.get_set s.regs r r v).trans (if_pos rfl), fun q h => (Regs.get_set s.regs r q v).trans (if_neg h)⟩

/-- Settles O18: register operands by the register laws (`writeOp8_reg`, `writeOp16_reg`), memory operands by read after
write. -/
theorem writeOperand : Obligations.WriteOperand := by
  unfold Obligations.WriteOperand
  intro s
  refine ⟨fun _ _ => rfl, fun _ _ => rfl, fun _ _ _ => rfl, fun _ _ _ => rfl,
    fun i => ⟨reg8_ofIdx_low s i, reg8_ofIdx_high s i⟩, writeOp8_reg s, writeOp16_reg s, ?_, ?_, ?_⟩
  · exact fun seg off v a => memRead8_memWrite8 s (phys seg off) a v
  · exact fun seg off v a => memRead8_memWrite16_ofNat s (phys seg off) a v
  · exact fun seg off => ⟨rfl, memRead16_toNat s (phys seg off)⟩

end Sys2Proof.Proofs
end

section
/-! SUPPORT. The frame of each shape of instruction: for each shared operation of the meanings, with the operands the encodings
give it, the bytes, registers and FLAGS bits that `Spec.stored`, `byteRegs`, `wordRegs`, `segRegs` and `flagBits` name. -/

namespace Sys2Proof.Proofs

open Sys2Proof.Machine Sys2Proof.Spec

variable {s : State}

/-! ### `rm` operands and pushed words -/

theorem opBytes8_rm8_subset (e : RM8) : opBytes8 (rm8 s e) ⊆ rmBytes8 s e := by
  cases e <;> exact List.Subset.refl _

theorem opRegs8_rm8_subset (e : RM8) : opRegs8 (rm8 s e) ⊆ rmReg8 e := by
  cases e <;> exact List.Subset.refl _

theorem opBytes16_rm16_subset (e : RM16) : opBytes16 (rm16 s e) ⊆ rmBytes16 s e := by
  cases e <;> exact List.Subset.refl _

theorem opRegs16_rm16_subset (e : RM16) : opRegs16 (rm16 s e) ⊆ rmReg16 e := by
  cases e <;> exact List.Subset.refl _

theorem wordAt_subset_pushedBytes {n k : Nat} (h : k < n) :
    wordAt s.segs.ss (s.regs.sp - BitVec.ofNat 16 (2 * (k + 1))) ⊆ pushedBytes s n :=
  fun _ ha => List.mem_flatMap.mpr ⟨k, List.mem_range.mpr h, ha⟩

/-! ### Moves and exchanges -/

theorem setReg8_frame (r : Reg8) (v : Byte) : Frame s (s.setReg8 r v) [] [r] [] [] [] := .setReg8 r v (.head _)

theorem setReg16_frame (r : Reg16) (v : Word) : Frame s (s.setReg16 r v) [] [] [r] [] [] := .setReg16 r v (.head _)

theorem writeOp8_rm_frame (e : RM8) (v : Byte) :
    Frame s (s.writeOp8 v (rm8 s e)) (rmBytes8 s e) (rmReg8 e) [] [] [] :=
  .writeOp8 _ v (opBytes8_rm8_subset e) (opRegs8_rm8_subset e)

theorem writeOp16_rm_frame (e : RM16) (v : Word) :
    Frame s (s.writeOp16 v (rm16 s e)) (rmBytes16 s e) [] (rmReg16 e) [] [] :=
  .writeOp16 _ v (opBytes16_rm16_subset e) (opRegs16_rm16_subset e)

theorem segWrite8_frame (seg off : Word) (v : Byte) : Frame s (s.segWrite8 seg off v) [phys seg off] [] [] [] [] :=
  .segWrite8 seg off v (.head _)

theorem segWrite16_frame (seg off v : Word) : Frame s (s.segWrite16 seg off v) (wordBytes seg off) [] [] [] [] :=
  .segWrite16 seg off v (.head _) (.tail _ (.head _))

theorem loadSreg_frame (r : SegReg) (v : Word) : Frame s (loadSreg r v s) [] [] [] [r] [] :=
  .congr (.setSreg r v (.head _)) rfl rfl rfl rfl

theorem loadFar_frame (r : SegReg) (a : Mem) (g : Reg16) : Frame s (loadFar r a g s) [] [] [g] [r] [] :=
  .trans (.setReg16 g _ (.head _)) (.setSreg r _ (.head _))

theorem xchg8_rm_frame (e : RM8) (g : Reg8) :
    Frame s (xchg8 (rm8 s e) (.reg g) s) (rmBytes8 s e) (g :: rmReg8 e) [] [] [] :=
  .trans (.writeOp8 _ _ (opBytes8_rm8_subset e) (List.subset_cons_of_subset _ (opRegs8_rm8_subset e)))
    (.setReg8 g _ (.head _))

theorem xchg16_rm_frame (e : RM16) (g : Reg16) :
    Frame s (xchg16 (rm16 s e) (.reg g) s) (rmBytes16 s e) [] (g :: rmReg16 e) [] [] :=
  .trans (.writeOp16 _ _ (opBytes16_rm16_subset e) (List.subset_cons_of_subset _ (opRegs16_rm16_subset e)))
    (.setReg16 g _ (.head _))

theorem xchg16_reg_frame (r q : Reg16) : Frame s (xchg16 (.reg r) (.reg q) s) [] [] [r, q] [] [] :=
  .trans (.setReg16 r _ (.head _)) (.setReg16 q _ (.tail _ (.head _)))

theorem sahf_frame (v : Byte) :
    Frame s { s with flags := (s.flags &&& 0xFF2A) ||| (zext16 v &&& 0x00D5) } [] [] [] [] [0, 2, 4, 6, 7] := by
  have masks : ∀ k : Fin 16, k.val ∉ [0, 2, 4, 6, 7] →
      (0xFF2A : Word).getLsbD k = true ∧ (0x00D5 : Word).getLsbD k = false := by decide
  refine .withFlags _ fun k hk => ?_
  rcases Nat.lt_or_ge k 16 with h | h
  · obtain ⟨keep, drop⟩ := masks ⟨k, h⟩ hk
    rw [BitVec.getLsbD_or, BitVec.getLsbD_and, BitVec.getLsbD_and, keep, drop, Bool.and_true, Bool.and_false, Bool.or_false]
  · rw [BitVec.getLsbD_of_ge _ _ h, BitVec.getLsbD_of_ge _ _ h]

/-! ### Arithmetic and logic -/

theorem alu8_rm_frame (op : AluOp) (e : RM8) (v : Operand8) :
    Frame s (alu8 op (rm8 s e) v s) (rmBytes8 s e) (rmReg8 e) [] [] statusBits :=
  .alu8 op _ v (fun _ => opBytes8_rm8_subset e) (fun _ => opRegs8_rm8_subset e) (List.Subset.refl _)

theorem alu16_rm_frame (op : AluOp) (e : RM16) (v : Operand16) :
    Frame s (alu16 op (rm16 s e) v s) (rmBytes16 s e) [] (rmReg16 e) [] statusBits :=
  .alu16 op _ v (fun _ => opBytes16_rm16_subset e) (fun _ => opRegs16_rm16_subset e) (List.Subset.refl _)

theorem alu8_reg_frame (op : AluOp) (r : Reg8) (v : Operand8) : Frame s (alu8 op (.reg r) v s) [] [r] [] [] statusBits :=
  .alu8 op _ v (fun _ => List.Subset.refl _) (fun _ => List.Subset.refl _) (List.Subset.refl _)

theorem alu16_reg_frame (op : AluOp) (r : Reg16) (v : Operand16) :
    Frame s (alu16 op (.reg r) v s) [] [] [r] [] statusBits :=
  .alu16 op _ v (fun _ => List.Subset.refl _) (fun _ => List.Subset.refl _) (List.Subset.refl _)

theorem cmp8_frame (d v : Operand8) : Frame s (alu8 .cmp d v s) [] [] [] [] statusBits :=
  .alu8 .cmp d v nofun nofun (List.Subset.refl _)

theorem cmp16_frame (d v : Operand16) : Frame s (alu16 .cmp d v s) [] [] [] [] statusBits :=
  .alu16 .cmp d v nofun nofun (List.Subset.refl _)

theorem test8_frame (x y : Operand8) : Frame s (test8 x y s) [] [] [] [] statusBits :=
  .withFlags _ fun k hk => Frame.logicFlags_bits _ _ k hk

theorem test16_frame (x y : Operand16) : Frame s (test16 x y s) [] [] [] [] statusBits :=
  .withFlags _ fun k hk => Frame.logicFlags_bits _ _ k hk

theorem unary8_rm_frame {F : Byte → Word → Byte × Word} {f : List Nat}
    (hf : ∀ v fl k, k ∉ f → (F v fl).2.getLsbD k = fl.getLsbD k) (e : RM8) :
    Frame s (unary8 F (rm8 s e) s) (rmBytes8 s e) (rmReg8 e) [] [] f :=
  .unary8 F _ (opBytes8_rm8_subset e) (opRegs8_rm8_subset e) hf

theorem unary16_rm_frame {F : Word → Word → Word × Word} {f : List Nat}
    (hf : ∀ v fl k, k ∉ f → (F v fl).2.getLsbD k = fl.getLsbD k) (e : RM16) :
    Frame s (unary16 F (rm16 s e) s) (rmBytes16 s e) [] (rmReg16 e) [] f :=
  .unary16 F _ (opBytes16_rm16_subset e) (opRegs16_rm16_subset e) hf

theorem unary16_reg_frame {F : Word → Word → Word × Word} {f : List Nat}
    (hf : ∀ v fl k, k ∉ f → (F v fl).2.getLsbD k = fl.getLsbD k) (r : Reg16) :
    Frame s (unary16 F (.reg r) s) [] [] [r] [] f :=
  .unary16 F _ (List.Subset.refl _) (List.Subset.refl _) hf

theorem shift8_rm_frame (op : ShiftOp) (k : Nat) (e : RM8) :
    Frame s (shift8 op k (rm8 s e) s) (if k = 0 then [] else rmBytes8 s e) (rmReg8 e) [] []
      (if op.isShift then statusBits else [0, 11]) :=
  .shift8 op k _ (fun h => by rw [if_neg h]; exact opBytes8_rm8_subset e) (opRegs8_rm8_subset e) (List.Subset.refl _)

theorem shift16_rm_frame (op : ShiftOp) (k : Nat) (e : RM16) :
    Frame s (shift16 op k (rm16 s e) s) (if k = 0 then [] else rmBytes16 s e) [] (rmReg16 e) []
      (if op.isShift then statusBits else [0, 11]) :=
  .shift16 op k _ (fun h => by rw [if_neg h]; exact opBytes16_rm16_subset e) (opRegs16_rm16_subset e) (List.Subset.refl _)

theorem mul8_frame (v : Byte) : Frame s (mul8 v s) [] [] [.ax] [] statusBits :=
  .trans (.setReg16 .ax _ (.head _)) (.mulFlags _ (List.Subset.refl _))

theorem imul8_frame (v : Byte) : Frame s (imul8 v s) [] [] [.ax] [] statusBits :=
  .trans (.setReg16 .ax _ (.head _)) (.mulFlags _ (List.Subset.refl _))

theorem setAxDx_frame {f : List Nat} (a d : Word) : Frame s ((s.setReg16 .ax a).setReg16 .dx d) [] [] [.ax, .dx] [] f :=
  .trans (.setReg16 .ax a (.head _)) (.setReg16 .dx d (.tail _ (.head _)))

theorem mul16_frame (v : Word) : Frame s (mul16 v s) [] [] [.ax, .dx] [] statusBits :=
  .trans (setAxDx_frame _ _) (.mulFlags _ (List.Subset.refl _))

theorem imul16_frame (v : Word) : Frame s (imul16 v s) [] [] [.ax, .dx] [] statusBits :=
  .trans (setAxDx_frame _ _) (.mulFlags _ (List.Subset.refl _))

theorem setAlAh_frame {f : List Nat} (l h : Byte) : Frame s ((s.setReg8 .al l).setReg8 .ah h) [] [.al, .ah] [] [] f :=
  .trans (.setReg8 .al l (.head _)) (.setReg8 .ah h (.tail _ (.head _)))

theorem setAhAl_frame {f : List Nat} (h l : Byte) : Frame s ((s.setReg8 .ah h).setReg8 .al l) [] [.al, .ah] [] [] f :=
  .trans (.setReg8 .ah h (.tail _ (.head _))) (.setReg8 .al l (.head _))

/-- R419, R420: SF, ZF and PF of the result, OF, AF and CF drawn. -/
theorem szpDraws_frame {m : List Nat} {b : List Reg8} (v : Byte) :
    Frame s ({ s with flags := szp v s.flags }.drawFlags [.ovf, .af, .cf]) m b [] [] statusBits :=
  .trans (.withFlags _ fun k hk => Frame.szp_bits v _ k hk) (.drawFlags _ (by decide))

theorem aad_frame (v : Byte) : Frame s (aad v s) [] [.al, .ah] [] [] statusBits :=
  .trans (setAlAh_frame _ 0) (szpDraws_frame _)

/-! ### Interrupts and divide errors -/

theorem interruptCall_frame (v : Byte) : Frame s (interruptCall v s) (pushedBytes s 3) [] [.sp] [.cs] [8, 9] :=
  .interruptCall v (wordAt_subset_pushedBytes (k := 0) (by decide)) (wordAt_subset_pushedBytes (k := 1) (by decide))
    (wordAt_subset_pushedBytes (k := 2) (by decide)) (.head _) (.head _) (List.Subset.refl _)

theorem divideError_frame : Frame s (divideError (s.drawFlags statusFlags)) (pushedBytes s 3) [] [.sp] [.cs]
    (statusBits ++ [8, 9]) :=
  .divideError (wordAt_subset_pushedBytes (k := 0) (by decide)) (wordAt_subset_pushedBytes (k := 1) (by decide))
    (wordAt_subset_pushedBytes (k := 2) (by decide)) (.head _) (.head _) (List.Subset.refl _)

/-- The frame of an instruction that raises the divide error where `raises`, and else writes the 8-bit registers `b` and the
16-bit registers `w`. -/
def DivideFrame (s t : State) (raises : Bool) (b : List Reg8) (w : List Reg16) : Prop :=
  Frame s t (if raises then pushedBytes s 3 else []) (if raises then [] else b) (if raises then [.sp] else w)
    (if raises then [.cs] else []) (if raises then statusBits ++ [8, 9] else statusBits)

theorem divideFrame_ite {c : Prop} [Decidable c] {raises : Bool} (hc : raises = true ↔ c) {u : State} {b : List Reg8}
    {w : List Reg16} (hu : Frame s u [] b w [] statusBits) :
    DivideFrame s (if c then divideError (s.drawFlags statusFlags) else u) raises b w := by
  unfold DivideFrame
  by_cases h : c
  · simpa only [hc, h, if_true] using divideError_frame
  · simpa only [hc, h, if_false] using hu

/-- Where no 8-bit register is written, none is named. -/
theorem DivideFrame.words {t : State} {raises : Bool} {w : List Reg16} (h : DivideFrame s t raises [] w) :
    Frame s t (if raises then pushedBytes s 3 else []) [] (if raises then [.sp] else w)
      (if raises then [.cs] else []) (if raises then statusBits ++ [8, 9] else statusBits) := by
  rwa [DivideFrame, ite_self] at h

theorem divideErrors_divEb (e : RM8) : divideErrors s (.divEb e) = true ↔
    s.readOp8 (rm8 s e) = 0 ∨ 255 < s.regs.ax.toNat / (s.readOp8 (rm8 s e)).toNat := by
  simp [divideErrors, BitVec.toNat_eq]

theorem divideErrors_divEv (e : RM16) : divideErrors s (.divEv e) = true ↔
    s.readOp16 (rm16 s e) = 0 ∨
      65535 < (s.regs.dx.toNat * 65536 + s.regs.ax.toNat) / (s.readOp16 (rm16 s e)).toNat := by
  simp [divideErrors, BitVec.toNat_eq, Nat.mul_comm]

theorem divideErrors_idivEb (e : RM8) : divideErrors s (.idivEb e) = true ↔
    s.readOp8 (rm8 s e) = 0 ∨ 127 < s.regs.ax.toInt.tdiv (s.readOp8 (rm8 s e)).toInt ∨
      s.regs.ax.toInt.tdiv (s.readOp8 (rm8 s e)).toInt < idivLow s 8 := by
  simp [divideErrors, ← BitVec.toInt_inj, lowQuotient, idivLow]

theorem divideErrors_idivEv (e : RM16) : divideErrors s (.idivEv e) = true ↔
    s.readOp16 (rm16 s e) = 0 ∨ 32767 < (s.regs.dx ++ s.regs.ax).toInt.tdiv (s.readOp16 (rm16 s e)).toInt ∨
      (s.regs.dx ++ s.regs.ax).toInt.tdiv (s.readOp16 (rm16 s e)).toInt < idivLow s 16 := by
  simp [divideErrors, ← BitVec.toInt_inj, lowQuotient, idivLow]

theorem divideErrors_aamIb (v : Byte) : divideErrors s (.aamIb v) = true ↔ v = 0 := beq_iff_eq

theorem statusDraw_frame {b : List Reg8} {w : List Reg16} : Frame s (s.drawFlags statusFlags) [] b w [] statusBits :=
  .statusDraw (List.Subset.refl _)

theorem div8_frame (e : RM8) :
    DivideFrame s (div8 (s.readOp8 (rm8 s e)) s) (divideErrors s (.divEb e)) [.al, .ah] [] :=
  divideFrame_ite (divideErrors_divEb e) (statusDraw_frame.trans (setAlAh_frame _ _))

theorem div16_frame (e : RM16) :
    DivideFrame s (div16 (s.readOp16 (rm16 s e)) s) (divideErrors s (.divEv e)) [] [.ax, .dx] :=
  divideFrame_ite (divideErrors_divEv e) (statusDraw_frame.trans (setAxDx_frame _ _))

theorem idiv8_frame (e : RM8) :
    DivideFrame s (idiv8 (s.readOp8 (rm8 s e)) s) (divideErrors s (.idivEb e)) [.al, .ah] [] :=
  divideFrame_ite (divideErrors_idivEb e) (statusDraw_frame.trans (setAlAh_frame _ _))

theorem idiv16_frame (e : RM16) :
    DivideFrame s (idiv16 (s.readOp16 (rm16 s e)) s) (divideErrors s (.idivEv e)) [] [.ax, .dx] :=
  divideFrame_ite (divideErrors_idivEv e) (statusDraw_frame.trans (setAxDx_frame _ _))

theorem aam_frame (v : Byte) : DivideFrame s (aam v s) (divideErrors s (.aamIb v)) [.al, .ah] [] :=
  divideFrame_ite (divideErrors_aamIb v) (.trans (setAhAl_frame _ _) (szpDraws_frame _))

/-! ### The stack and control transfer -/

theorem push16_frame (v : Word) : Frame s (s.push16 v) (pushedBytes s 1) [] [.sp] [] [] :=
  have h := wordAt_subset_pushedBytes (s := s) (n := 1) (k := 0) (by decide)
  .push16 v (h (.head _)) (h (.tail _ (.head _))) (.head _)

theorem pushReg_frame (r : Reg16) : Frame s (pushReg r s) (pushedBytes s 1) [] [.sp] [] [] :=
  push16_frame (s.decSp.reg16 r)

theorem pushRm_frame (e : RM16) : Frame s (pushRm e s) (pushedBytes s 1) [] [.sp] [] [] := by
  unfold pushRm
  split
  · exact pushReg_frame .sp
  · exact push16_frame _

theorem popReg_frame {w : List Reg16} (r : Reg16) (hsp : .sp ∈ w) (hr : r ∈ w) : Frame s (popReg r s) [] [] w [] [] :=
  .trans (.drop16 hsp) (.setReg16 r _ hr)

theorem popSreg_frame (r : SegReg) : Frame s (popSreg r s) [] [] [.sp] [r] [] :=
  .congr (.trans (.drop16 (.head _)) (.setSreg r _ (.head _))) rfl rfl rfl rfl

theorem popRm_frame (e : RM16) :
    Frame s (s.drop16.writeOp16 s.top16 (rm16 s e)) (rmBytes16 s e) [] (.sp :: rmReg16 e) [] [] :=
  .trans (.drop16 (.head _))
    (.writeOp16 _ _ (opBytes16_rm16_subset e) (List.subset_cons_of_subset _ (opRegs16_rm16_subset e)))

/-- A FLAGS word taken off the stack may change each of its bits. -/
theorem withFlags_frame {m : List Nat} {b : List Reg8} {w : List Reg16} {g : List SegReg} (fl : Word) :
    Frame s { s with flags := fl } m b w g (List.range 16) :=
  .withFlags fl fun k hk => by
    have h : 16 ≤ k := Nat.le_of_not_lt fun h => hk (List.mem_range.mpr h)
    rw [BitVec.getLsbD_of_ge _ _ h, BitVec.getLsbD_of_ge _ _ h]

theorem popf_frame : Frame s { s.drop16 with flags := s.top16 } [] [] [.sp] [] (List.range 16) :=
  .trans (.drop16 (.head _)) (withFlags_frame _)

theorem iret_frame : Frame s (iret s) [] [] [.sp] [.cs] (List.range 16) :=
  have far : Frame s (retFar s) [] [] [.sp] [.cs] (List.range 16) := .retFar (.head _) (.head _)
  (far.trans ((Frame.drop16 (.head _)).trans (withFlags_frame (retFar s).top16))).congr rfl rfl rfl rfl

theorem jumpTo_frame (x : Word) : Frame s (jumpTo x s) [] [] [] [] [] := .of_eq rfl rfl rfl rfl

theorem callTo_frame (x : Word) : Frame s (callTo x s) (pushedBytes s 1) [] [.sp] [] [] :=
  .callTo x (wordAt_subset_pushedBytes (k := 0) (by decide)) (.head _)

theorem callFar_frame (off seg : Word) : Frame s (callFar off seg s) (pushedBytes s 2) [] [.sp] [.cs] [] :=
  .callFar off seg (wordAt_subset_pushedBytes (k := 0) (by decide)) (wordAt_subset_pushedBytes (k := 1) (by decide))
    (.head _) (.head _)

theorem release_frame {g : List SegReg} (n : Word) : Frame s (release n s) [] [] [.sp] g [] := .setReg16 .sp _ (.head _)

theorem jcxz_frame (v : Byte) :
    Frame s (if s.regs.cx = 0 then jumpTo (relTarget s (sext16 v)) s else s) [] [] [] [] [] := by
  split
  · exact jumpTo_frame _
  · exact .refl

theorem into_frame : Frame s (if s.flag .ovf then interruptCall 4 s else s) (if ovf s.flags then pushedBytes s 3 else []) []
    [.sp] (if ovf s.flags then [.cs] else []) (if ovf s.flags then [8, 9] else []) := by
  change Frame s (if ovf s.flags then _ else _) _ _ _ _ _
  split
  · exact interruptCall_frame 4
  · exact .refl

/-! ### Strings -/

/-- The index registers an iteration moves are among those the repeated instruction writes. -/
theorem subset_stringRegs {l : List Reg16} (h : skips s = false) : l ⊆ stringRegs s l := by
  rw [stringRegs, h, if_neg Bool.false_ne_true]
  split
  · exact List.subset_cons_self _ _
  · exact List.Subset.refl _

theorem stringStep_frame {z : Bool} {body : State → State} {m : List Nat} {b : List Reg8} {l : List Reg16} {f : List Nat}
    (h : skips s = false → ∀ {w}, l ⊆ w → Frame s (body s) m b w [] f) :
    Frame s (stringStep z body s) m b (stringRegs s l) [] f := by
  refine .stringStep z body (fun hs => h hs (subset_stringRegs hs)) fun hr hc => ?_
  have hs : skips s = false := by rw [skips, hr, beq_eq_false_iff_ne.mpr hc]; rfl
  rw [stringRegs, hs, if_neg Bool.false_ne_true, if_pos hr]
  exact .head _

theorem stepDi_frame {m : List Nat} {b : List Reg8} {w : List Reg16} {f : List Nat} (n : Word) (hw : [.di] ⊆ w) :
    Frame s (stepDi n s) m b w [] f := .stepDi n (hw (.head _))

theorem stepSiDi_frame {m : List Nat} {b : List Reg8} {w : List Reg16} {f : List Nat} (n : Word) (hw : [.si, .di] ⊆ w) :
    Frame s (stepDi n (stepSi n s)) m b w [] f :=
  .trans (.stepSi n (hw (.head _))) (.stepDi n (hw (.tail _ (.head _))))

theorem movs8_frame : Frame s (stringStep false movs8 s) (if skips s then [] else [phys s.segs.es s.regs.di]) []
    (stringRegs s [.si, .di]) [] [] :=
  stringStep_frame fun hs _ hw =>
    .trans (.segWrite8 _ _ _ (by rw [hs]; exact .head _)) (stepSiDi_frame 1 hw)

theorem movs16_frame : Frame s (stringStep false movs16 s) (if skips s then [] else wordBytes s.segs.es s.regs.di) []
    (stringRegs s [.si, .di]) [] [] :=
  stringStep_frame fun hs _ hw =>
    .trans (.segWrite16 _ _ _ (by rw [hs]; exact .head _) (by rw [hs]; exact .tail _ (.head _))) (stepSiDi_frame 2 hw)

theorem stos8_frame : Frame s (stringStep false stos8 s) (if skips s then [] else [phys s.segs.es s.regs.di]) []
    (stringRegs s [.di]) [] [] :=
  stringStep_frame fun hs _ hw => .trans (.segWrite8 _ _ _ (by rw [hs]; exact .head _)) (stepDi_frame 1 hw)

theorem stos16_frame : Frame s (stringStep false stos16 s) (if skips s then [] else wordBytes s.segs.es s.regs.di) []
    (stringRegs s [.di]) [] [] :=
  stringStep_frame fun hs _ hw =>
    .trans (.segWrite16 _ _ _ (by rw [hs]; exact .head _) (by rw [hs]; exact .tail _ (.head _))) (stepDi_frame 2 hw)

theorem lods8_frame : Frame s (stringStep false lods8 s) [] (if skips s then [] else [.al]) (stringRegs s [.si]) [] [] :=
  stringStep_frame fun hs _ hw => .trans (.setReg8 .al _ (by rw [hs]; exact .head _)) (.stepSi 1 (hw (.head _)))

theorem lods16_frame : Frame s (stringStep false lods16 s) [] [] (stringRegs s [.si, .ax]) [] [] :=
  stringStep_frame fun _ _ hw => .trans (.setReg16 .ax _ (hw (.tail _ (.head _)))) (.stepSi 2 (hw (.head _)))

theorem cmps8_frame : Frame s (stringStep true cmps8 s) [] [] (stringRegs s [.si, .di]) [] statusBits :=
  stringStep_frame fun _ _ hw => .trans (.subFlags_with _ _ (List.Subset.refl _)) (stepSiDi_frame 1 hw)

theorem cmps16_frame : Frame s (stringStep true cmps16 s) [] [] (stringRegs s [.si, .di]) [] statusBits :=
  stringStep_frame fun _ _ hw => .trans (.subFlags_with _ _ (List.Subset.refl _)) (stepSiDi_frame 2 hw)

theorem scas8_frame : Frame s (stringStep true scas8 s) [] [] (stringRegs s [.di]) [] statusBits :=
  stringStep_frame fun _ _ hw => .trans (.subFlags_with _ _ (List.Subset.refl _)) (stepDi_frame 1 hw)

theorem scas16_frame : Frame s (stringStep true scas16 s) [] [] (stringRegs s [.di]) [] statusBits :=
  stringStep_frame fun _ _ hw => .trans (.subFlags_with _ _ (List.Subset.refl _)) (stepDi_frame 2 hw)

end Sys2Proof.Proofs
end

section
/-! SUPPORT. The frame of every instruction but the callback trap, whose handler is the host's: memory, registers and FLAGS in one
statement, and the register frame from it. -/

namespace Sys2Proof.Proofs

open Sys2Proof.Machine Sys2Proof.Spec

variable {s : State}

/-- What an instruction does: it completes, and changes nothing outside the bytes, registers and FLAGS bits the statements
name for it. -/
def CompletesInFrame (s : State) (i : Instr) : Prop :=
  ∃ t, exec i s = .next t ∧ Frame s t (stored s i) (byteRegs s i) (wordRegs s i) (segRegs s i) (flagBits s i)

theorem completesInFrame (s : State) (i : Instr) (h : isCallback i = false) : CompletesInFrame s i := by
  cases i with
  -- ADD to XOR, CMP and TEST
  | addEbGb | orEbGb | adcEbGb | sbbEbGb | andEbGb | subEbGb | xorEbGb | addEbIb | orEbIb | adcEbIb | sbbEbIb | andEbIb
  | subEbIb | xorEbIb | addEbIb82 | orEbIb82 | adcEbIb82 | sbbEbIb82 | andEbIb82 | subEbIb82 | xorEbIb82 =>
    exact ⟨_, rfl, alu8_rm_frame _ _ _⟩
  | addEvGv | orEvGv | adcEvGv | sbbEvGv | andEvGv | subEvGv | xorEvGv | addEvIv | orEvIv | adcEvIv | sbbEvIv | andEvIv
  | subEvIv | xorEvIv | addEvIb | orEvIb | adcEvIb | sbbEvIb | andEvIb | subEvIb | xorEvIb =>
    exact ⟨_, rfl, alu16_rm_frame _ _ _⟩
  | addGbEb | orGbEb | adcGbEb | sbbGbEb | andGbEb | subGbEb | xorGbEb | addAlIb | orAlIb | adcAlIb | sbbAlIb | andAlIb
  | subAlIb | xorAlIb => exact ⟨_, rfl, alu8_reg_frame _ _ _⟩
  | addGvEv | orGvEv | adcGvEv | sbbGvEv | andGvEv | subGvEv | xorGvEv | addAxIv | orAxIv | adcAxIv | sbbAxIv | andAxIv
  | subAxIv | xorAxIv => exact ⟨_, rfl, alu16_reg_frame _ _ _⟩
  | cmpEbGb | cmpGbEb | cmpAlIb | cmpEbIb | cmpEbIb82 => exact ⟨_, rfl, cmp8_frame _ _⟩
  | cmpEvGv | cmpGvEv | cmpAxIv | cmpEvIv | cmpEvIb => exact ⟨_, rfl, cmp16_frame _ _⟩
  | testEbGb | testAlIb | testEbIb => exact ⟨_, rfl, test8_frame _ _⟩
  | testEvGv | testAxIv | testEvIv => exact ⟨_, rfl, test16_frame _ _⟩
  -- INC, DEC, NEG and NOT
  | incAx | incCx | incDx | incBx | incSp | incBp | incSi | incDi =>
    exact ⟨_, rfl, unary16_reg_frame Frame.incFlags_bits _⟩
  | decAx | decCx | decDx | decBx | decSp | decBp | decSi | decDi =>
    exact ⟨_, rfl, unary16_reg_frame Frame.decFlags_bits _⟩
  | incEb => exact ⟨_, rfl, unary8_rm_frame Frame.incFlags_bits _⟩
  | decEb => exact ⟨_, rfl, unary8_rm_frame Frame.decFlags_bits _⟩
  | negEb => exact ⟨_, rfl, unary8_rm_frame Frame.negFlags_bits _⟩
  | incEv => exact ⟨_, rfl, unary16_rm_frame Frame.incFlags_bits _⟩
  | decEv => exact ⟨_, rfl, unary16_rm_frame Frame.decFlags_bits _⟩
  | negEv => exact ⟨_, rfl, unary16_rm_frame Frame.negFlags_bits _⟩
  | notEb | movEbGb | movEbIb => exact ⟨_, rfl, writeOp8_rm_frame _ _⟩
  | notEv | movEvGv | movEvIv | movEwSw => exact ⟨_, rfl, writeOp16_rm_frame _ _⟩
  -- shifts and rotates
  | rolEb1 | rorEb1 | rclEb1 | rcrEb1 | shlEb1 | shrEb1 | sarEb1 => exact ⟨_, rfl, shift8_rm_frame _ 1 _⟩
  | rolEv1 | rorEv1 | rclEv1 | rcrEv1 | shlEv1 | shrEv1 | sarEv1 => exact ⟨_, rfl, shift16_rm_frame _ 1 _⟩
  | rolEbCl | rorEbCl | rclEbCl | rcrEbCl | shlEbCl | shrEbCl | sarEbCl =>
    exact ⟨_, rfl, shift8_rm_frame _ (countCl s) _⟩
  | rolEvCl | rorEvCl | rclEvCl | rcrEvCl | shlEvCl | shrEvCl | sarEvCl =>
    exact ⟨_, rfl, shift16_rm_frame _ (countCl s) _⟩
  -- multiplication, division and the decimal instructions
  | mulEb => exact ⟨_, rfl, mul8_frame _⟩
  | imulEb => exact ⟨_, rfl, imul8_frame _⟩
  | mulEv => exact ⟨_, rfl, mul16_frame _⟩
  | imulEv => exact ⟨_, rfl, imul16_frame _⟩
  | divEb e => exact ⟨_, rfl, div8_frame e⟩
  | idivEb e => exact ⟨_, rfl, idiv8_frame e⟩
  | divEv e => exact ⟨_, rfl, (div16_frame e).words⟩
  | idivEv e => exact ⟨_, rfl, (idiv16_frame e).words⟩
  | aamIb v => exact ⟨_, rfl, aam_frame v⟩
  | aadIb => exact ⟨_, rfl, aad_frame _⟩
  | aaa | aas => exact ⟨_, rfl, .asciiAdjust _ (List.Subset.refl _) (List.Subset.refl _)⟩
  | daa => exact ⟨_, rfl, .daa (List.Subset.refl _) (List.Subset.refl _)⟩
  | das => exact ⟨_, rfl, .das (List.Subset.refl _) (List.Subset.refl _)⟩
  | cbw | cwd => exact ⟨_, rfl, setReg16_frame _ _⟩
  -- moves and exchanges
  | movGbEb | movAlIb | movClIb | movDlIb | movBlIb | movAhIb | movChIb | movDhIb | movBhIb | movAlOb | xlat | lahf =>
    exact ⟨_, rfl, setReg8_frame _ _⟩
  | movGvEv | movAxIv | movCxIv | movDxIv | movBxIv | movSpIv | movBpIv | movSiIv | movDiIv | movAxOv | leaGvM =>
    exact ⟨_, rfl, setReg16_frame _ _⟩
  | movObAl => exact ⟨_, rfl, segWrite8_frame _ _ _⟩
  | movOvAx => exact ⟨_, rfl, segWrite16_frame _ _ _⟩
  | movSwEwEs | movSwEwSsDs => exact ⟨_, rfl, loadSreg_frame _ _⟩
  | ldsGvMp | lesGvMp => exact ⟨_, rfl, loadFar_frame _ _ _⟩
  | xchgEbGb => exact ⟨_, rfl, xchg8_rm_frame _ _⟩
  | xchgEvGv => exact ⟨_, rfl, xchg16_rm_frame _ _⟩
  | xchgCxAx | xchgDxAx | xchgBxAx | xchgSpAx | xchgBpAx | xchgSiAx | xchgDiAx => exact ⟨_, rfl, xchg16_reg_frame _ _⟩
  | sahf => exact ⟨_, rfl, sahf_frame _⟩
  -- the stack
  | pushAx | pushCx | pushDx | pushBx | pushSp | pushBp | pushSi | pushDi => exact ⟨_, rfl, pushReg_frame _⟩
  | pushEs | pushCs | pushSs | pushDs | pushf => exact ⟨_, rfl, push16_frame _⟩
  | pushEv => exact ⟨_, rfl, pushRm_frame _⟩
  | popSp => exact ⟨_, rfl, popReg_frame .sp (.head _) (.head _)⟩
  | popAx | popCx | popDx | popBx | popBp | popSi | popDi =>
    exact ⟨_, rfl, popReg_frame _ (.head _) (.tail _ (.head _))⟩
  | popEs | popSs | popDs => exact ⟨_, rfl, popSreg_frame _⟩
  | popEv => exact ⟨_, rfl, popRm_frame _⟩
  | popf => exact ⟨_, rfl, popf_frame⟩
  -- control transfer and interrupts
  | jmpJb | jmpJv | jmpEv => exact ⟨_, rfl, jumpTo_frame _⟩
  | jmpAp | jmpMp => exact ⟨_, rfl, .jumpFar _ _ (.head _)⟩
  | callJv | callEv => exact ⟨_, rfl, callTo_frame _⟩
  | callAp | callMp => exact ⟨_, rfl, callFar_frame _ _⟩
  | ret => exact ⟨_, rfl, .retNear (.head _)⟩
  | retf => exact ⟨_, rfl, .retFar (.head _) (.head _)⟩
  | retIw => exact ⟨_, rfl, .trans (.retNear (.head _)) (release_frame _)⟩
  | retfIw => exact ⟨_, rfl, .trans (.retFar (.head _) (.head _)) (release_frame _)⟩
  | joJb | jnoJb | jbJb | jnbJb | jzJb | jnzJb | jbeJb | jaJb | jsJb | jnsJb | jpJb | jnpJb | jlJb | jgeJb | jleJb | jgJb =>
    exact ⟨_, rfl, .jumpIf _ _⟩
  | loopJb | loopzJb | loopnzJb => exact ⟨_, rfl, .loopIf _ _ (.head _)⟩
  | jcxzJb => exact ⟨_, rfl, jcxz_frame _⟩
  | intIb | int3 => exact ⟨_, rfl, interruptCall_frame _⟩
  | into => exact ⟨_, rfl, into_frame⟩
  | iret => exact ⟨_, rfl, iret_frame⟩
  -- strings
  | movsb => exact ⟨_, rfl, movs8_frame⟩
  | movsw => exact ⟨_, rfl, movs16_frame⟩
  | cmpsb => exact ⟨_, rfl, cmps8_frame⟩
  | cmpsw => exact ⟨_, rfl, cmps16_frame⟩
  | scasb => exact ⟨_, rfl, scas8_frame⟩
  | scasw => exact ⟨_, rfl, scas16_frame⟩
  | lodsb => exact ⟨_, rfl, lods8_frame⟩
  | lodsw => exact ⟨_, rfl, lods16_frame⟩
  | stosb => exact ⟨_, rfl, stos8_frame⟩
  | stosw => exact ⟨_, rfl, stos16_frame⟩
  -- ports
  | inAlIb | inAlDx => exact ⟨_, rfl, .inAl _ (List.Subset.refl _)⟩
  | inAxIb | inAxDx => exact ⟨_, rfl, .inAx _ (List.Subset.refl _)⟩
  | outIbAl | outDxAl => exact ⟨_, rfl, .ioWrite _ _⟩
  | outIbAx | outDxAx => exact ⟨_, rfl, .trans (.ioWrite _ _) (.ioWrite _ _)⟩
  -- processor control
  | clc | stc | cmc | cld | std | cli => exact ⟨_, rfl, .setFlag _ _ (.head _)⟩
  | sti => exact ⟨_, rfl, .congr (.setFlag .ie true (.head _)) rfl rfl rfl rfl⟩
  | nop | wait | esc0Ev | esc1Ev | esc2Ev | esc3Ev | esc4Ev | esc5Ev | esc6Ev | esc7Ev => exact ⟨_, rfl, .refl⟩
  | hlt | lock | rep | repne | segEs | segCs | segSs | segDs | ud => exact ⟨_, rfl, .of_eq rfl rfl rfl rfl⟩
  | callbackIw => nomatch h

/-- R13, R56, R152: the frame of memory, registers and FLAGS at once, of which the statements on each are the parts. -/
theorem exec_frame {i : Instr} {t : State} (hi : isCallback i = false) (h : exec i s = .next t) :
    Frame s t (stored s i) (byteRegs s i) (wordRegs s i) (segRegs s i) (flagBits s i) := by
  obtain ⟨u, hu, frame⟩ := completesInFrame s i hi
  cases h.symm.trans hu
  exact frame

/-- Settles O15: the register part of the frame that every instruction keeps (`exec_frame`). -/
theorem registerFrame : Obligations.RegisterFrame := by
  unfold Obligations.RegisterFrame
  intro i s t hi h
  have frame := exec_frame hi h
  exact ⟨frame.reg16, frame.reg8, frame.sreg⟩

end Sys2Proof.Proofs
end

section
/-! SUPPORT. FLAGS: that the rules name reserved bits for POPF and IRET only, with the part of the instructions' frame on FLAGS
(R56 to R66), and FLAGS pushed and popped. -/

namespace Sys2Proof.Proofs

open Sys2Proof.Machine Sys2Proof.Spec

/-! ### The frame of FLAGS (R56 to R66) -/

/-- R56: the bits of FLAGS that are not reserved: the status flags, TF, IF and DF. -/
def namedBits : List Nat := statusBits ++ [8, 9, 10]

theorem reserved_not_named {k : Nat} (h : k ∈ reservedBits) : k ∉ namedBits := by
  revert k; decide

theorem ite_subset {l l' m : List Nat} {c : Bool} (h : l ⊆ m) (h' : l' ⊆ m) : (if c then l else l') ⊆ m := by
  split
  · exact h
  · exact h'

/-- The bits a division may change: those of the divide error's interrupt-call, or the status flags. -/
theorem divide_subset_namedBits {c : Bool} : (if c then statusBits ++ [8, 9] else statusBits) ⊆ namedBits :=
  ite_subset (by decide) (by decide)

/-- R57: the rules name reserved bits for POPF and IRET only. -/
theorem flagBits_subset_namedBits (s : State) {i : Instr} (hp : i ≠ .popf) (hi : i ≠ .iret) :
    flagBits s i ⊆ namedBits := by
  cases i with
  | popf => exact absurd rfl hp
  | iret => exact absurd rfl hi
  | divEb | divEv | idivEb | idivEv | aamIb => exact divide_subset_namedBits
  | into => exact ite_subset (by decide) (by decide)
  -- of every other instruction the bits are a list written out
  | _ => exact of_decide_eq_true rfl

/-- Settles O16: the FLAGS part of the frame (`exec_frame`), and the named bits are not the reserved ones. -/
theorem flagsFrame : Obligations.FlagsFrame := by
  unfold Obligations.FlagsFrame
  intro i s t hc h
  have keeps : Keeps (flagBits s i) s.flags t.flags := (exec_frame hc h).flags
  exact ⟨keeps, fun hp hi k hk => keeps k fun named =>
    reserved_not_named hk (flagBits_subset_namedBits s hp hi named)⟩

/-! ### FLAGS on the stack (R57, R326, R327) -/

theorem exec_pushf (s : State) : exec .pushf s = .next (s.push16 s.flags) := rfl

theorem exec_popf (s : State) : exec .popf s = .next { s.drop16 with flags := s.top16 } := rfl

/-- The word just pushed is the word on top of the stack. -/
theorem top16_push16 (s : State) (v : Word) : (s.push16 v).top16 = v := segRead16_segWrite16_self _ _ _ _

/-- A push and a pop leave SP, and with it every register, as it was. -/
theorem drop16_push16_regs (s : State) (v : Word) : (s.push16 v).drop16.regs = s.regs := by
  have sp : s.regs.sp - 2 + 2 = s.regs.sp := BitVec.sub_add_cancel _ _
  rw [State.drop16_eq, State.push16_eq]
  exact congrArg (fun v => { s.regs with sp := v }) sp

/-- Settles O22: POPF takes off the stack the word PUSHF put there (`top16_push16`, `drop16_push16_regs`). -/
theorem pushfPopf : Obligations.PushfPopf := by
  unfold Obligations.PushfPopf
  intro s
  exact ⟨exec_pushf s, exec_popf s, _, _, exec_pushf s, exec_popf _, top16_push16 s s.flags, drop16_push16_regs s s.flags⟩

end Sys2Proof.Proofs
end

section
/-! SUPPORT. What every instruction but the callback trap does to the machine outside registers, FLAGS and memory: pending
interrupts, the delay flag, halt, status, the PIT and the decode-transient state (R70 to R75, R806, R815). -/

namespace Sys2Proof.Proofs

open Sys2Proof.Machine Sys2Proof.Spec

/-- From `s` to `t` pending interrupts, registry, parameters, schedule and allocator answer stay; the delay flag is set where
`delay`, the CPU halts where `halt`, an interrupt-call notes itself where `calls`; the status may change only where `ends`, the
PIT only where `port`, and the decode-transient state is otherwise kept unless `pre`. -/
structure SystemEffect (s t : State) (delay halt calls ends port pre : Bool) : Prop where
  nmiPending : t.nmiPending = s.nmiPending
  intrPending : t.intrPending = s.intrPending
  intrVector : t.intrVector = s.intrVector
  trapPending : t.trapPending = s.trapPending
  registry : t.registry = s.registry
  params : t.params = s.params
  sched : t.sched = s.sched
  mcbResult : t.mcbResult = s.mcbResult
  intDelay : t.intDelay = (s.intDelay || delay)
  halted : t.halted = (s.halted || halt)
  status : ends = false → t.status = s.status
  pit : port = false → t.pit = s.pit
  tr : pre = false → t.tr = { s.tr with calledInt := s.tr.calledInt || calls }

namespace SystemEffect

variable {s t u : State} {delay halt calls ends port pre : Bool}

/-- Two changes within the same bounds. -/
theorem trans (h : SystemEffect s t delay halt calls ends port pre) (h' : SystemEffect t u delay halt calls ends port pre) :
    SystemEffect s u delay halt calls ends port pre where
  nmiPending := h'.nmiPending.trans h.nmiPending
  intrPending := h'.intrPending.trans h.intrPending
  intrVector := h'.intrVector.trans h.intrVector
  trapPending := h'.trapPending.trans h.trapPending
  registry := h'.registry.trans h.registry
  params := h'.params.trans h.params
  sched := h'.sched.trans h.sched
  mcbResult := h'.mcbResult.trans h.mcbResult
  intDelay := by rw [h'.intDelay, h.intDelay, Bool.or_assoc, Bool.or_self]
  halted := by rw [h'.halted, h.halted, Bool.or_assoc, Bool.or_self]
  status := fun x => (h'.status x).trans (h.status x)
  pit := fun x => (h'.pit x).trans (h.pit x)
  tr := fun x => by rw [h'.tr x, h.tr x, Bool.or_assoc, Bool.or_self]

/-- A change outside the fields of `SameSystem` that notes an interrupt-call where `calls`. -/
theorem of_sameSystem (h : SameSystem s t) (htr : t.tr = { s.tr with calledInt := s.tr.calledInt || calls }) :
    SystemEffect s t false false calls ends port pre where
  nmiPending := h.nmiPending
  intrPending := h.intrPending
  intrVector := h.intrVector
  trapPending := h.trapPending
  registry := h.registry
  params := h.params
  sched := h.sched
  mcbResult := h.mcbResult
  intDelay := by rw [h.intDelay, Bool.or_false]
  halted := by rw [h.halted, Bool.or_false]
  status := fun _ => h.status
  pit := fun _ => h.pit
  tr := fun _ => htr

/-- A change that leaves the decode-transient state too. -/
theorem quiet (h : SameSystem s t) (htr : t.tr = s.tr) : SystemEffect s t false false false ends port pre :=
  of_sameSystem h (by rw [htr, Bool.or_false])

theorem refl : SystemEffect s s false false false ends port pre := quiet (.refl s) rfl

/-- An update of registers, segment registers, IP, FLAGS, memory and the draw number. -/
theorem core (r : Regs) (g : Segs) (ip fl : Word) (m : Memory) (n : Nat) :
    SystemEffect s { s with regs := r, segs := g, ip := ip, flags := fl, mem := m, draws := n } false false false ends port
      pre :=
  quiet (.of_core s r g ip fl m s.tr n) rfl

end SystemEffect

variable {s t : State} {ends port pre : Bool}

/-! ### Interrupts, the delay flag, ports, halt, status and prefixes -/

theorem interruptCall_effect (v : Byte) : SystemEffect s (interruptCall v s) false false true ends port pre :=
  .of_sameSystem (.interruptCall v s) (by rw [interruptCall_tr, Bool.or_true])

theorem into_effect :
    SystemEffect s (if s.flag .ovf then interruptCall 4 s else s) false false (ovf s.flags) ends port pre := by
  change SystemEffect s (if ovf s.flags then _ else _) _ _ _ _ _ _
  cases ovf s.flags with
  | true => exact interruptCall_effect 4
  | false => exact .refl

/-- A division notes an interrupt-call where it raises the divide error. -/
theorem divide_effect {c : Prop} [Decidable c] {raises : Bool} (hc : raises = true ↔ c) (h : SameSystem s t)
    (htr : t.tr = { s.tr with calledInt := s.tr.calledInt || decide c }) :
    SystemEffect s t false false raises ends port pre := by
  have e : raises = decide c := Bool.eq_iff_iff.mpr (hc.trans decide_eq_true_iff.symm)
  rw [e]
  exact .of_sameSystem h htr

/-- R806: a change that sets the delay flag where `d`. -/
theorem delay_effect {b d : Bool} (h : SameSystem s t) (htr : t.tr = s.tr) (hb : b = (s.intDelay || d)) :
    SystemEffect s { t with intDelay := b } d false false ends port pre :=
  { SystemEffect.quiet h htr with intDelay := hb }

theorem loadSreg_effect (r : SegReg) (v : Word) : SystemEffect s (loadSreg r v s) true false false ends port pre :=
  delay_effect (.of_core ..) rfl (Bool.or_true _).symm

theorem popSreg_effect (r : SegReg) : SystemEffect s (popSreg r s) true false false ends port pre :=
  delay_effect (.of_core ..) rfl (Bool.or_true _).symm

theorem sti_effect : SystemEffect s { s.setFlag .ie true with intDelay := true } true false false ends port pre :=
  delay_effect (.of_core ..) rfl (Bool.or_true _).symm

theorem iret_effect : SystemEffect s (iret s) s.params.iretDelay false false ends port pre :=
  delay_effect (t := interruptReturn s) (.of_core ..) rfl rfl

/-- R160: a port access reaches the PIT and the draw number. -/
theorem pit_effect (p : Pit) : SystemEffect s { s with pit := p } false false false ends true pre :=
  { SystemEffect.refl (port := true) with pit := nofun }

theorem ioReadState_effect (p : Word) : SystemEffect s (ioReadState p s) false false false ends true pre := by
  unfold ioReadState
  split
  · exact pit_effect _
  · exact .core ..
  · exact .core ..

theorem ioWrite_effect (p : Word) (v : Byte) : SystemEffect s (ioWrite p v s) false false false ends true pre := by
  unfold ioWrite
  split
  · exact pit_effect _
  · exact .core ..
  · exact .core ..

theorem inAl_effect (p : Word) : SystemEffect s (inAl p s) false false false ends true pre :=
  (ioReadState_effect p).trans (.core ..)

theorem inAx_effect (p : Word) : SystemEffect s (inAx p s) false false false ends true pre :=
  (inAl_effect p).trans ((ioReadState_effect (p + 1)).trans (.core ..))

theorem outAx_effect (p : Word) : SystemEffect s (outAx p s) false false false ends true pre :=
  (ioWrite_effect p _).trans (ioWrite_effect (p + 1) _)

theorem hlt_effect : SystemEffect s { s with halted := true } false true false ends port pre :=
  { SystemEffect.refl with halted := (Bool.or_true _).symm }

/-- R713: an undefined encoding ends the machine. -/
theorem undefinedOp_effect (op : Byte) (m : Option Byte) :
    SystemEffect s (undefinedOp op m s) false false false true port pre :=
  { SystemEffect.refl (ends := true) with status := nofun }

/-- R202: prefixes record themselves in the decode-transient state. -/
theorem recordPrefix_effect (b : Byte) (f : Transient → Transient) :
    SystemEffect s (recordPrefix b f s) false false false ends port true :=
  { SystemEffect.refl (pre := true) with tr := nofun }

/-! ### The other operations whose outcome depends on a test -/

theorem stringStep_effect (z : Bool) {body : State → State} (h : SameSystem s (body s)) (htr : (body s).tr = s.tr) :
    SystemEffect s (stringStep z body s) false false false ends port pre :=
  .quiet (.stringStep z body s h) (stringStep_tr s z body htr)

theorem jcxz_effect (v : Byte) :
    SystemEffect s (if s.regs.cx = 0 then jumpTo (relTarget s (sext16 v)) s else s) false false false ends port pre := by
  split
  · exact .core ..
  · exact .core ..

/-! ### Every instruction -/

/-- What an instruction does: it completes, and outside registers, FLAGS and memory it does what the rules name for it. -/
def CompletesWithEffect (s : State) (i : Instr) : Prop :=
  ∃ t, exec i s = .next t ∧
    SystemEffect s t (setsDelay s i) (decide (i = .hlt)) (interrupts s i) (isUd i) (accessesPort i) i.isPrefix

theorem completesWithEffect (s : State) (i : Instr) (h : isCallback i = false) : CompletesWithEffect s i := by
  cases i with
  -- ADD to XOR, CMP and TEST
  | addEbGb | orEbGb | adcEbGb | sbbEbGb | andEbGb | subEbGb | xorEbGb | cmpEbGb
  | addGbEb | orGbEb | adcGbEb | sbbGbEb | andGbEb | subGbEb | xorGbEb | cmpGbEb
  | addAlIb | orAlIb | adcAlIb | sbbAlIb | andAlIb | subAlIb | xorAlIb | cmpAlIb
  | addEbIb | orEbIb | adcEbIb | sbbEbIb | andEbIb | subEbIb | xorEbIb | cmpEbIb
  | addEbIb82 | orEbIb82 | adcEbIb82 | sbbEbIb82 | andEbIb82 | subEbIb82 | xorEbIb82 | cmpEbIb82 =>
    exact ⟨_, rfl, .quiet (.alu8 ..) (alu8_tr ..)⟩
  | addEvGv | orEvGv | adcEvGv | sbbEvGv | andEvGv | subEvGv | xorEvGv | cmpEvGv
  | addGvEv | orGvEv | adcGvEv | sbbGvEv | andGvEv | subGvEv | xorGvEv | cmpGvEv
  | addAxIv | orAxIv | adcAxIv | sbbAxIv | andAxIv | subAxIv | xorAxIv | cmpAxIv
  | addEvIv | orEvIv | adcEvIv | sbbEvIv | andEvIv | subEvIv | xorEvIv | cmpEvIv
  | addEvIb | orEvIb | adcEvIb | sbbEvIb | andEvIb | subEvIb | xorEvIb | cmpEvIb =>
    exact ⟨_, rfl, .quiet (.alu16 ..) (alu16_tr ..)⟩
  | testEbGb | testAlIb | testEbIb | testEvGv | testAxIv | testEvIv => exact ⟨_, rfl, .core ..⟩
  -- INC, DEC, NEG and NOT
  | incAx | incCx | incDx | incBx | incSp | incBp | incSi | incDi
  | decAx | decCx | decDx | decBx | decSp | decBp | decSi | decDi | incEv | decEv | negEv =>
    exact ⟨_, rfl, .quiet (.unary16 ..) (unary16_tr ..)⟩
  | incEb | decEb | negEb => exact ⟨_, rfl, .quiet (.unary8 ..) (unary8_tr ..)⟩
  | notEb | movEbGb | movEbIb | movGbEb => exact ⟨_, rfl, .quiet (.writeOp8 ..) (writeOp8_tr ..)⟩
  | notEv | movEvGv | movEvIv | movEwSw | movGvEv => exact ⟨_, rfl, .quiet (.writeOp16 ..) (writeOp16_tr ..)⟩
  -- shifts and rotates
  | rolEb1 | rorEb1 | rclEb1 | rcrEb1 | shlEb1 | shrEb1 | sarEb1
  | rolEbCl | rorEbCl | rclEbCl | rcrEbCl | shlEbCl | shrEbCl | sarEbCl =>
    exact ⟨_, rfl, .quiet (.shift8 ..) (shift8_tr ..)⟩
  | rolEv1 | rorEv1 | rclEv1 | rcrEv1 | shlEv1 | shrEv1 | sarEv1
  | rolEvCl | rorEvCl | rclEvCl | rcrEvCl | shlEvCl | shrEvCl | sarEvCl =>
    exact ⟨_, rfl, .quiet (.shift16 ..) (shift16_tr ..)⟩
  -- multiplication, division and the decimal instructions
  | divEb e => exact ⟨_, rfl, divide_effect (divideErrors_divEb e) (.div8 ..) (div8_tr ..)⟩
  | idivEb e => exact ⟨_, rfl, divide_effect (divideErrors_idivEb e) (.idiv8 ..) (idiv8_tr ..)⟩
  | divEv e => exact ⟨_, rfl, divide_effect (divideErrors_divEv e) (.div16 ..) (div16_tr ..)⟩
  | idivEv e => exact ⟨_, rfl, divide_effect (divideErrors_idivEv e) (.idiv16 ..) (idiv16_tr ..)⟩
  | aamIb v => exact ⟨_, rfl, divide_effect (divideErrors_aamIb (s := s) v) (.aam ..) (aam_tr ..)⟩
  | mulEb | imulEb | mulEv | imulEv | aadIb | aaa | aas | daa | das | cbw | cwd => exact ⟨_, rfl, .core ..⟩
  -- moves and exchanges
  | movAlIb | movClIb | movDlIb | movBlIb | movAhIb | movChIb | movDhIb | movBhIb | movAlOb | xlat | lahf
  | movAxIv | movCxIv | movDxIv | movBxIv | movSpIv | movBpIv | movSiIv | movDiIv | movAxOv | leaGvM
  | movObAl | movOvAx | ldsGvMp | lesGvMp | sahf => exact ⟨_, rfl, .core ..⟩
  | movSwEwEs | movSwEwSsDs => exact ⟨_, rfl, loadSreg_effect ..⟩
  | xchgEbGb => exact ⟨_, rfl, .quiet (.trans (.writeOp8 ..) (.writeOp8 ..)) (xchg8_tr ..)⟩
  | xchgEvGv | xchgCxAx | xchgDxAx | xchgBxAx | xchgSpAx | xchgBpAx | xchgSiAx | xchgDiAx =>
    exact ⟨_, rfl, .quiet (.trans (.writeOp16 ..) (.writeOp16 ..)) (xchg16_tr ..)⟩
  -- the stack
  | pushAx | pushCx | pushDx | pushBx | pushSp | pushBp | pushSi | pushDi | pushEs | pushCs | pushSs | pushDs | pushf
  | popAx | popCx | popDx | popBx | popSp | popBp | popSi | popDi | popf => exact ⟨_, rfl, .core ..⟩
  | pushEv => exact ⟨_, rfl, .quiet (.pushRm ..) (pushRm_tr ..)⟩
  | popEs | popSs | popDs => exact ⟨_, rfl, popSreg_effect _⟩
  | popEv => exact ⟨_, rfl, .trans (.core ..) (.quiet (.writeOp16 ..) (writeOp16_tr ..))⟩
  -- control transfer and interrupts
  | jmpJb | jmpJv | jmpEv | jmpAp | jmpMp | callJv | callEv | callAp | callMp | ret | retf | retIw | retfIw =>
    exact ⟨_, rfl, .core ..⟩
  | joJb | jnoJb | jbJb | jnbJb | jzJb | jnzJb | jbeJb | jaJb | jsJb | jnsJb | jpJb | jnpJb | jlJb | jgeJb | jleJb | jgJb =>
    exact ⟨_, rfl, .quiet (.jumpIf ..) (jumpIf_tr ..)⟩
  | loopJb | loopzJb | loopnzJb => exact ⟨_, rfl, .quiet (.loopIf ..) (loopIf_tr ..)⟩
  | jcxzJb => exact ⟨_, rfl, jcxz_effect _⟩
  | intIb | int3 => exact ⟨_, rfl, interruptCall_effect _⟩
  | into => exact ⟨_, rfl, into_effect⟩
  | iret => exact ⟨_, rfl, iret_effect⟩
  -- strings
  | movsb | movsw | cmpsb | cmpsw | scasb | scasw | lodsb | lodsw | stosb | stosw =>
    exact ⟨_, rfl, stringStep_effect _ (.of_core ..) rfl⟩
  -- ports
  | inAlIb | inAlDx => exact ⟨_, rfl, inAl_effect _⟩
  | inAxIb | inAxDx => exact ⟨_, rfl, inAx_effect _⟩
  | outIbAl | outDxAl => exact ⟨_, rfl, ioWrite_effect ..⟩
  | outIbAx | outDxAx => exact ⟨_, rfl, outAx_effect _⟩
  -- processor control
  | clc | stc | cmc | cld | std | cli | nop | wait | esc0Ev | esc1Ev | esc2Ev | esc3Ev | esc4Ev | esc5Ev | esc6Ev
  | esc7Ev => exact ⟨_, rfl, .core ..⟩
  | sti => exact ⟨_, rfl, sti_effect⟩
  | hlt => exact ⟨_, rfl, hlt_effect⟩
  | lock | rep | repne | segEs | segCs | segSs | segDs => exact ⟨_, rfl, recordPrefix_effect ..⟩
  | ud => exact ⟨_, rfl, undefinedOp_effect ..⟩
  | callbackIw => nomatch h

/-- R70 to R75, R806: what an instruction that completes did outside registers, FLAGS and memory. -/
theorem exec_systemEffect {i : Instr} (hi : isCallback i = false) (h : exec i s = .next t) :
    SystemEffect s t (setsDelay s i) (decide (i = .hlt)) (interrupts s i) (isUd i) (accessesPort i) i.isPrefix := by
  obtain ⟨u, hu, effect⟩ := completesWithEffect s i hi
  cases h.symm.trans hu
  exact effect

/-- Settles O17: the effect that every instruction has on the rest of the machine (`exec_systemEffect`). -/
theorem systemFrame : Obligations.SystemFrame := by
  unfold Obligations.SystemFrame
  intro i s t hi h
  obtain ⟨nmi, intr, vector, trap, registry, params, sched, answer, delay, halted, status, pit, tr⟩ :=
    exec_systemEffect hi h
  exact ⟨nmi, intr, vector, trap, registry, params, sched, answer, delay, halted, status, pit, tr⟩

end Sys2Proof.Proofs
end

section
/-! SUPPORT. A running machine always takes a step, and the state after reset. -/

namespace Sys2Proof.Proofs

open Sys2Proof.Machine Sys2Proof.Spec

/-! ### The step of a running machine and of an ended one (R75, R200, R829) -/

/-- The loop over prefixes always ends in a next state. -/
theorem runFrom_next (n : Nat) (s : State) : ∃ t, runFrom n s = .next t := by
  obtain ⟨t, ht, -⟩ := Laws.runFrom_induct (P := fun _ _ => True) (fun _ => trivial) (fun _ _ _ _ _ _ _ => trivial)
    (fun _ _ _ _ _ _ _ _ _ => trivial) n s
  exact ⟨t, ht⟩

/-- R200: an interrupt taken, a halted step and the loop over prefixes each answer a next state. -/
theorem cpuStep_next (s : State) : ∃ t, cpuStep s = .next t := by
  unfold cpuStep
  split_ifs
  · exact ⟨_, rfl⟩
  · exact ⟨_, rfl⟩
  · exact ⟨_, rfl⟩
  · exact ⟨_, rfl⟩
  · exact runFrom_next _ _

/-- R829: so does every turn of the schedule. -/
theorem takeTurn_next (s : State) : ∃ t, takeTurn s = .next t := by
  unfold takeTurn
  split
  · exact cpuStep_next s
  · exact cpuStep_next _
  · exact ⟨_, rfl⟩

theorem step_running {s : State} (h : s.status = .running) : Machine.step s = takeTurn s := by
  rw [Machine.step, stepRunning, h]

theorem step_exited {s : State} {c : Word} (h : s.status = .exited c) : Machine.step s = .fault (.exited c) := by
  rw [Machine.step, stepRunning, h]

theorem step_faulted {s : State} {r : MachineFault} (h : s.status = .fault r) :
    Machine.step s = .fault (.machineFault r) := by
  rw [Machine.step, stepRunning, h]

/-- Settles O10: a running machine takes a turn, which always answers a next state (`takeTurn_next`). -/
theorem endedMachineStops : Obligations.EndedMachineStops := by
  unfold Obligations.EndedMachineStops
  intro s
  exact ⟨fun _ h => step_faulted h, fun _ h => step_exited h, fun h => step_running h ▸ takeTurn_next s⟩

/-! ### The state after reset (R78, R828) -/

theorem channelInv_construction : ChannelInv Channel.construction := ⟨rfl, Nat.zero_le _, nofun⟩

/-- Settles O12: memory is in its canonical form (`reset_mem_wf`) and the PIT's channels are at construction. -/
theorem invariantAtReset : Obligations.InvariantAtReset := by
  unfold Obligations.InvariantAtReset
  exact ⟨reset_mem_wf, channelInv_construction, channelInv_construction, channelInv_construction, rfl, nofun⟩

/-- R78: the general registers at launch, SP but for the launch record's stack, are 0. -/
theorem reg16_reset {r : Reg16} (h : r ≠ .sp) : State.reset.reg16 r = 0 := by
  cases r with
  | sp => exact absurd rfl h
  | ax | cx | dx | bx | bp | si | di => rfl

theorem pit_reset {c : Channel} (h : c ∈ [State.reset.pit.c0, State.reset.pit.c1, State.reset.pit.c2]) :
    c = .construction := by
  simpa [State.reset, State.launch, Pit.construction] using h

/-- Settles O59: what every launch state has in common (`Launched.fields`), the PIT at construction, and the values of the
launch record and the parameters. -/
theorem resetState : Obligations.ResetState := by
  unfold Obligations.ResetState
  obtain ⟨nmi, intr, delay, halted, trap, running, tr, -, -⟩ := Safety.launched_reset.fields
  refine ⟨nmi, intr, delay, halted, trap, running, tr, fun c hc => ?_, rfl, rfl, rfl, rfl, rfl, rfl, fun _ => reg16_reset,
    rfl, rfl, rfl, rfl, rfl, rfl, rfl, rfl, rfl, rfl, rfl, rfl⟩
  rw [pit_reset hc]
  exact ⟨rfl, rfl, rfl, rfl, rfl, rfl, rfl, rfl, rfl, rfl, rfl, rfl⟩

end Sys2Proof.Proofs
end

section
/-! SUPPORT. Memory and ports: the memory part of the instructions' frame (R152, R157, R166), which device answers a port (R163,
R164, R816), and IN and OUT as byte accesses (R162). -/

namespace Sys2Proof.Proofs

open Sys2Proof.Machine Sys2Proof.Spec

variable {s : State} {p : Word}

/-! ### Memory -/

/-- Settles O14: the memory part of the frame that every instruction keeps (`exec_frame`). -/
theorem memoryFrame : Obligations.MemoryFrame := by
  unfold Obligations.MemoryFrame
  intro i s t hi h
  exact (exec_frame hi h).mem

/-! ### The owner of a port and what an access does there -/

theorem portOwner_pit (h : 0x40 ≤ p.toNat) (h' : p.toNat ≤ 0x5F) : portOwner p = .pit := if_pos ⟨h, h'⟩

theorem portOwner_external
    (h : (0x60 ≤ p.toNat ∧ p.toNat ≤ 0x64) ∨ (0x3C0 ≤ p.toNat ∧ p.toNat ≤ 0x3DF)) : portOwner p = .external :=
  (if_neg (by omega)).trans (if_pos h)

theorem portOwner_nobody (h : ¬(0x40 ≤ p.toNat ∧ p.toNat ≤ 0x64)) (h' : ¬(0x3C0 ≤ p.toNat ∧ p.toNat ≤ 0x3DF)) :
    portOwner p = .nobody :=
  (if_neg (by omega)).trans (if_neg (by omega))

theorem accesses_of_pit (h : portOwner p = .pit) (s : State) (v : Byte) :
    ioReadByte p s = s.pit.readByte (pitRegister p) ∧
      ioReadState p s = { s with pit := s.pit.afterRead (pitRegister p) } ∧
      ioWrite p v s = { s with pit := s.pit.write (pitRegister p) v } := by
  rw [ioReadByte, ioReadState, ioWrite, h]
  exact ⟨rfl, rfl, rfl⟩

theorem accesses_of_external (h : portOwner p = .external) (s : State) (v : Byte) :
    ioReadByte p s = Config.extIo s.draws p ∧ ioReadState p s = { s with draws := s.draws + 1 } ∧ ioWrite p v s = s := by
  rw [ioReadByte, ioReadState, ioWrite, h]
  exact ⟨rfl, rfl, rfl⟩

theorem accesses_of_nobody (h : portOwner p = .nobody) (s : State) (v : Byte) :
    ioReadByte p s = 0 ∧ ioReadState p s = s ∧ ioWrite p v s = s := by
  rw [ioReadByte, ioReadState, ioWrite, h]
  exact ⟨rfl, rfl, rfl⟩

/-- Settles O43: each clause is the range of one owner (`portOwner_pit`, `portOwner_external`, `portOwner_nobody`) with what an
access does there. -/
theorem portRouting : Obligations.PortRouting := by
  unfold Obligations.PortRouting
  intro s p v
  exact ⟨fun h h' => accesses_of_pit (portOwner_pit h h') s v, fun h => accesses_of_external (portOwner_external h) s v,
    fun h h' => accesses_of_nobody (portOwner_nobody h h') s v⟩

/-! ### IN and OUT -/

/-- R160: a fixed port is the immediate byte extended with zeros. -/
theorem eq_zext16_of_toNat_eq {v : Byte} (h : p.toNat = v.toNat) : p = zext16 v :=
  BitVec.eq_of_toNat_eq (h.trans (BitVec.toNat_setWidth_of_le (by decide)).symm)

/-- Settles O42: both the fixed and the DX forms are `inAl`, `inAx`, `outAl` and `outAx` at their port, and those are the byte
accesses at `p` and `p + 1`. -/
theorem inAndOut : Obligations.InAndOut := by
  unfold Obligations.InAndOut
  intro s i8 i16 o8 o16 p h
  refine ⟨p + 1, BitVec.toNat_add p 1, ?_⟩
  rcases h with ⟨v, hp, rfl, rfl, rfl, rfl⟩ | ⟨rfl, rfl, rfl, rfl, rfl⟩
  · obtain rfl := eq_zext16_of_toNat_eq hp
    exact ⟨rfl, rfl, rfl, rfl⟩
  · exact ⟨rfl, rfl, rfl, rfl⟩

end Sys2Proof.Proofs
end

section
/-! SUPPORT. The channels of the PIT stay in range (R815, R822, R824) under port accesses and cycles. -/

namespace Sys2Proof.Proofs

open Sys2Proof.Machine Sys2Proof.Spec

/-! ### One channel -/

section Channel

variable {c : Channel}

/-- R822: activation loads the counter from the count, where 0 stands for 65536. -/
theorem channelInv_activate (c : Channel) : ChannelInv c.activate where
  reload := rfl
  ce := Nat.le_refl _
  active := fun _ => by
    change 1 ≤ if c.count = 0 then 65536 else c.count.toNat
    split
    · decide
    · next h => exact Nat.one_le_iff_ne_zero.mpr fun e => h (BitVec.eq_of_toNat_eq e)

/-- Fields outside count, reload, counter and activity do not matter. -/
theorem channelInv_congr {d : Channel} (h : ChannelInv c) (count : d.count = c.count) (reload : d.reload = c.reload)
    (ce : d.ce = c.ce) (active : d.active = true → c.active = true) : ChannelInv d where
  reload := by rw [reload, count]; exact h.reload
  ce := by rw [ce, reload]; exact h.ce
  active := fun x => by rw [ce]; exact h.active (active x)

theorem channelInv_writeData (h : ChannelInv c) (v : Byte) : ChannelInv (c.writeData v) := by
  unfold Channel.writeData
  split
  · exact channelInv_activate _
  · exact channelInv_activate _
  · split
    · exact channelInv_activate _
    · exact channelInv_congr h rfl rfl rfl id

theorem channelInv_latchCommand (h : ChannelInv c) : ChannelInv c.latchCommand := by
  unfold Channel.latchCommand
  split
  · exact h
  · exact channelInv_congr h rfl rfl rfl id

/-- R819: reprogramming stops the channel. -/
theorem channelInv_reprogram (h : ChannelInv c) (access : Access) (mode : BitVec 3) (bcd : Bool) :
    ChannelInv (c.reprogram access mode bcd) := channelInv_congr h rfl rfl rfl nofun

theorem channelInv_afterRead (h : ChannelInv c) : ChannelInv c.afterRead := by
  unfold Channel.afterRead
  split
  · exact channelInv_congr h rfl rfl rfl id
  · exact channelInv_congr h rfl rfl rfl id
  · split
    · exact channelInv_congr h rfl rfl rfl id
    · exact channelInv_congr h rfl rfl rfl id

/-- R824: an active channel counts down to 1 and starts again at its reload value. -/
theorem channelInv_runCycles (h : ChannelInv c) (n : Nat) : ChannelInv (c.runCycles n) := by
  have hce := h.ce
  unfold Channel.runCycles
  split
  · next active =>
    have positive := h.active active
    have wraps := Nat.mod_lt (n - c.ce) (y := c.reload) (by omega)
    split
    · next below => exact ⟨h.reload, (Nat.sub_le _ _).trans hce, fun _ => Nat.sub_pos_of_lt below⟩
    · exact ⟨h.reload, Nat.sub_le _ _, fun _ => Nat.sub_pos_of_lt wraps⟩
  · exact h

end Channel

/-! ### The bank of three -/

/-- The part of the invariant that is on the PIT. -/
structure PitInv (p : Pit) : Prop where
  c0 : ChannelInv p.c0
  c1 : ChannelInv p.c1
  c2 : ChannelInv p.c2

namespace PitInv

variable {p : Pit}

theorem channel (h : PitInv p) (i : Nat) : ChannelInv (p.channel i) := by
  unfold Pit.channel
  split
  · exact h.c0
  · exact h.c1
  · exact h.c2

theorem setChannel (h : PitInv p) (i : Nat) {c : Channel} (hc : ChannelInv c) : PitInv (p.setChannel i c) := by
  unfold Pit.setChannel
  split
  · exact ⟨hc, h.c1, h.c2⟩
  · exact ⟨h.c0, hc, h.c2⟩
  · exact ⟨h.c0, h.c1, hc⟩

theorem control (h : PitInv p) (v : Byte) : PitInv (p.control v) := by
  unfold Pit.control
  dsimp only
  split
  · exact h
  · split
    · exact h.setChannel _ (channelInv_latchCommand (h.channel _))
    · exact h.setChannel _ (channelInv_reprogram (h.channel _) _ _ _)

theorem write (h : PitInv p) (i : Nat) (v : Byte) : PitInv (p.write i v) := by
  unfold Pit.write
  split
  · exact h.control v
  · exact h.setChannel i (channelInv_writeData (h.channel i) v)

theorem afterRead (h : PitInv p) (i : Nat) : PitInv (p.afterRead i) := by
  unfold Pit.afterRead
  split
  · exact h
  · exact h.setChannel i (channelInv_afterRead (h.channel i))

theorem runCycles (h : PitInv p) (n : Nat) : PitInv (p.runCycles n) :=
  ⟨channelInv_runCycles h.c0 n, channelInv_runCycles h.c1 n, channelInv_runCycles h.c2 n⟩

end PitInv

end Sys2Proof.Proofs
end

section
/-! SUPPORT. Every step keeps the invariant and the parameters. Within a step the decode-transient state is in use, so that part
of the invariant stands apart: the rest is kept by every host action, instruction and interrupt (`Preserves`), and the step ends
with no decode-transient state (R71). -/

namespace Sys2Proof.Proofs

open Sys2Proof.Machine Sys2Proof.Spec

/-- From `s` to `t` the parameters stay and so does every part of the invariant but the one on the decode-transient state. -/
structure Preserves (s t : State) : Prop where
  mem : s.mem.wf → t.mem.wf
  pit : PitInv s.pit → PitInv t.pit
  trap : t.trapPending = true → s.trapPending = true ∨ s.params.singleStep = true
  params : t.params = s.params

variable {s t : State}

namespace Preserves

variable {u : State}

theorem trans (h : Preserves s t) (h' : Preserves t u) : Preserves s u where
  mem := fun x => h'.mem (h.mem x)
  pit := fun x => h'.pit (h.pit x)
  trap := fun x => (h'.trap x).elim h.trap fun single => .inr (h.params ▸ single)
  params := h'.params.trans h.params

/-- A change outside memory, the PIT, `trap_pending` and the parameters. -/
theorem of_eq (mem : t.mem = s.mem) (pit : t.pit = s.pit) (trap : t.trapPending = s.trapPending)
    (params : t.params = s.params) : Preserves s t where
  mem := fun x => mem ▸ x
  pit := fun x => pit ▸ x
  trap := fun x => .inl (trap ▸ x)
  params := params

theorem refl (s : State) : Preserves s s := of_eq rfl rfl rfl rfl

theorem withMem (s : State) {m : Memory} (h : s.mem.wf → m.wf) : Preserves s { s with mem := m } :=
  { refl s with mem := h }

theorem withPit (s : State) {p : Pit} (h : PitInv s.pit → PitInv p) : Preserves s { s with pit := p } :=
  { refl s with pit := h }

theorem of_memOnly (h : MemOnly s t) : Preserves s t := by
  obtain ⟨m, rfl, hm⟩ := h
  exact withMem s hm

/-- The invariant, where the decode-transient state is gone too. -/
theorem inv (h : Preserves s t) (tr : s.tr = .none → t.tr = .none) (hs : Inv s) : Inv t :=
  have pit := h.pit ⟨hs.c0, hs.c1, hs.c2⟩
  { mem := h.mem hs.mem
    c0 := pit.c0
    c1 := pit.c1
    c2 := pit.c2
    tr := tr hs.tr
    trap := fun x => h.params.symm ▸ (h.trap x).elim hs.trap id }

end Preserves

/-! ### Ports and host actions (R163, R824, R831) -/

theorem ioReadState_preserves (p : Word) (s : State) : Preserves s (ioReadState p s) := by
  unfold ioReadState
  split
  · exact .withPit s fun h => h.afterRead _
  · exact .of_eq rfl rfl rfl rfl
  · exact .refl s

theorem ioWrite_preserves (p : Word) (v : Byte) (s : State) : Preserves s (ioWrite p v s) := by
  unfold ioWrite
  split
  · exact .withPit s fun h => h.write _ v
  · exact .refl s
  · exact .refl s

theorem inAl_preserves (p : Word) (s : State) : Preserves s (inAl p s) :=
  (ioReadState_preserves p s).trans (.of_eq rfl rfl rfl rfl)

theorem inAx_preserves (p : Word) (s : State) : Preserves s (inAx p s) :=
  (inAl_preserves p s).trans ((ioReadState_preserves (p + 1) _).trans (.of_eq rfl rfl rfl rfl))

theorem outAx_preserves (p : Word) (s : State) : Preserves s (outAx p s) :=
  (ioWrite_preserves p _ s).trans (ioWrite_preserves (p + 1) _ _)

theorem runPit_preserves (n : Nat) (s : State) : Preserves s (runPit n s) := by
  have cycles : Preserves s { s with pit := s.pit.runCycles n } := .withPit s fun h => h.runCycles n
  unfold runPit
  dsimp only
  split
  · exact cycles.trans (.of_eq rfl rfl rfl rfl)
  · exact cycles

theorem runMcb_preserves (op : McbOp) (s : State) : Preserves s (runMcb op s) := by
  obtain ⟨m, st, r, e, hm⟩ := runMcb_change op s
  rw [e]
  exact (Preserves.withMem s hm).trans (.of_eq rfl rfl rfl rfl)

theorem installCallback_preserves (id off : Word) (handler : Nat) (s : State) :
    Preserves s (hostAct (.installCallback id off handler) s) :=
  .trans (.of_memOnly (.writeBytes s s.params.callbackSegment off (callbackStub id))) (.of_eq rfl rfl rfl rfl)

/-- R802: the vector table lies within memory. -/
theorem installVector_preserves (v : Byte) (off seg : Word) (s : State) :
    Preserves s (hostAct (.installVector v off seg) s) :=
  have entry : 4 * v.toNat + 2 < Config.memSize := by have := v.isLt; unfold Config.memSize; omega
  .of_memOnly ((MemOnly.write16 s _ off (by omega)).trans (.write16 _ _ seg entry))

/-- R831: what every host action keeps. -/
theorem hostAct_preserves (a : HostAction) (s : State) : Preserves s (hostAct a s) := by
  cases a with
  | writeMem seg off v => exact .of_memOnly (.write8 s _ v (phys_lt seg off))
  | readMem | readRegs | pause | resume => exact .refl s
  | writeReg | writeSeg | writeIp | writeFlags | raiseNmi | raiseIntr | exit | refuse => exact .of_eq rfl rfl rfl rfl
  | runPit n => exact runPit_preserves n s
  | ioRead p => exact ioReadState_preserves p s
  | ioWrite p v => exact ioWrite_preserves p v s
  | mcb op => exact runMcb_preserves op s
  | installCallback id off handler => exact installCallback_preserves id off handler s
  | installVector v off seg => exact installVector_preserves v off seg s

theorem runPit_tr (n : Nat) (s : State) : (runPit n s).tr = s.tr := by
  unfold runPit
  dsimp only
  split
  · rfl
  · rfl

theorem runMcb_tr (op : McbOp) (s : State) : (runMcb op s).tr = s.tr := by
  obtain ⟨m, st, r, e, -⟩ := runMcb_change op s
  rw [e]

/-- R71, R831: no host action reaches the decode-transient state. -/
theorem hostAct_tr (a : HostAction) (s : State) : (hostAct a s).tr = s.tr := by
  cases a with
  | runPit n => exact runPit_tr n s
  | ioRead p => exact ioReadState_tr s p
  | ioWrite p v => exact ioWrite_tr s p v
  | mcb op => exact runMcb_tr op s
  | installCallback id off handler => rw [hostAct_installCallback]
  | _ => rfl

/-- R832: a callback handler is a list of host actions, whatever it does. -/
theorem runHandler_preserves (handler : Nat) (s : State) : Preserves s (runHandler handler s) :=
  hostActs_induct (fun a _ h => h.trans (hostAct_preserves a _)) _ _ (.of_eq rfl rfl rfl rfl)

/-! ### Instructions -/

/-- R712: a callback runs its handler, or ends the machine. -/
theorem callback_preserves (id : Word) (s : State) : Preserves s (callback id s) := by
  unfold callback
  split
  · exact .of_eq rfl rfl rfl rfl
  · exact runHandler_preserves _ s

/-- R160: of the instructions only IN and OUT reach the PIT. -/
theorem exec_pitInv {i : Instr} (hi : isCallback i = false) (h : exec i s = .next t) (inv : PitInv s.pit) :
    PitInv t.pit := by
  by_cases port : accessesPort i = false
  · rw [(exec_systemEffect hi h).pit port]; exact inv
  · cases i with
    | inAlIb | inAlDx => cases h; exact (inAl_preserves _ s).pit inv
    | inAxIb | inAxDx => cases h; exact (inAx_preserves _ s).pit inv
    | outIbAl | outDxAl => cases h; exact (ioWrite_preserves _ _ s).pit inv
    | outIbAx | outDxAx => cases h; exact (outAx_preserves _ s).pit inv
    | _ => exact absurd rfl port

/-- What every instruction keeps: by its frame memory, by its effect on the rest of the machine the other parts. -/
theorem exec_preserves {i : Instr} (h : exec i s = .next t) : Preserves s t := by
  by_cases hi : isCallback i = false
  · have effect := exec_systemEffect hi h
    exact ⟨(exec_frame hi h).wf, exec_pitInv hi h, fun x => .inl (effect.trapPending ▸ x), effect.params⟩
  · cases i with
    | callbackIw _ id => cases h; exact callback_preserves id s
    | _ => exact absurd rfl hi

/-! ### The step (R200, R202, R829) -/

theorem interruptCall_preserves (v : Byte) (s : State) : Preserves s (interruptCall v s) where
  mem := (interruptCall_frame v).wf
  pit := fun h => (SameSystem.interruptCall v s).pit ▸ h
  trap := fun h => .inl ((SameSystem.interruptCall v s).trapPending ▸ h)
  params := (SameSystem.interruptCall v s).params

/-- R807: an interrupt taken wakes the CPU and ends the step. -/
theorem deliver_preserves (v : Byte) (s : State) : Preserves s (deliver v s) :=
  have wake : Preserves s { s with halted := false } := .of_eq rfl rfl rfl rfl
  (wake.trans (interruptCall_preserves v _)).trans (.of_eq rfl rfl rfl rfl)

/-- R74, R200: the end of an instruction sets `trap_pending` only with `SINGLE_STEP`. -/
theorem finish_preserves (s : State) : Preserves s (finish s) where
  mem := id
  pit := id
  trap := by
    unfold finish
    dsimp only
    split
    · next h => exact fun _ => .inr h.2
    · exact .inl
  params := rfl

/-- A part of a step that ends it: the invariant's parts are kept and the decode-transient state is gone. -/
def EndsStep (s t : State) : Prop := Preserves s t ∧ t.tr = .none

theorem EndsStep.after {u : State} (h : Preserves s t) (h' : EndsStep t u) : EndsStep s u := ⟨h.trans h'.1, h'.2⟩

theorem finish_endsStep (s : State) : EndsStep s (finish s) := ⟨finish_preserves s, rfl⟩

theorem deliver_endsStep (v : Byte) (s : State) : EndsStep s (deliver v s) := ⟨deliver_preserves v s, rfl⟩

theorem prefixHang_endsStep (s : State) : EndsStep s (prefixHang s) :=
  have hang : Preserves s { s with status := .fault .prefixHang } := .of_eq rfl rfl rfl rfl
  .after hang (finish_endsStep _)

/-- R55: the fetch moves IP only, before the instruction is executed. -/
theorem exec_advance_preserves {i : Instr} {rest : List Byte} (h : exec i (advance rest s) = .next t) : Preserves s t :=
  .trans (t := advance rest s) (.of_eq rfl rfl rfl rfl) (exec_preserves h)

/-- R202: the prefixes and the instruction after them. -/
theorem runFrom_endsStep {n : Nat} (h : runFrom n s = .next t) : EndsStep s t := by
  obtain ⟨u, hu, ends⟩ := Laws.runFrom_induct (P := EndsStep)
    prefixHang_endsStep
    (fun _ _ _ _ _ _ ht => .after (exec_advance_preserves ht) (finish_endsStep _))
    (fun _ _ _ _ _ _ _ ht ends => ends.after (exec_advance_preserves ht)) n s
  cases h.symm.trans hu
  exact ends

/-- A turn: the invariant's parts are kept, and where no decode-transient state was before, none is after. -/
def KeepsInv (s t : State) : Prop := Preserves s t ∧ (s.tr = .none → t.tr = .none)

theorem EndsStep.keepsInv (h : EndsStep s t) : KeepsInv s t := ⟨h.1, fun _ => h.2⟩

/-- R803, R807: a delivery first takes back the pending request it serves. -/
theorem deliver_keepsInv (v : Byte) (h : Preserves s t) : KeepsInv s (deliver v t) :=
  (EndsStep.after h (deliver_endsStep v t)).keepsInv

/-- R200: the CPU delivers an NMI, an INTR or a single-step trap, stays halted, or runs an instruction. -/
theorem cpuStep_keepsInv (h : cpuStep s = .next t) : KeepsInv s t := by
  unfold cpuStep at h
  split_ifs at h
  · cases h; exact deliver_keepsInv 2 (.of_eq rfl rfl rfl rfl)
  · cases h; exact deliver_keepsInv s.intrVector (.of_eq rfl rfl rfl rfl)
  · cases h; exact deliver_keepsInv 1 { Preserves.refl s with trap := nofun }
  · cases h; exact ⟨.of_eq rfl rfl rfl rfl, id⟩
  · have begins : Preserves s (beginInstr { s with intDelay := false }) := .of_eq rfl rfl rfl rfl
    exact (EndsStep.after begins (runFrom_endsStep h)).keepsInv

theorem hostAct_keepsInv (a : HostAction) (s : State) : KeepsInv s (hostAct a s) :=
  ⟨hostAct_preserves a s, fun h => (hostAct_tr a s).trans h⟩

/-- The schedule is no part of the invariant. -/
theorem KeepsInv.of_sched {rest : List Turn} (h : KeepsInv { s with sched := rest } t) : KeepsInv s t :=
  ⟨.trans (t := { s with sched := rest }) (.of_eq rfl rfl rfl rfl) h.1, h.2⟩

/-- R829: the CPU steps, or the host acts. -/
theorem takeTurn_keepsInv (h : takeTurn s = .next t) : KeepsInv s t := by
  unfold takeTurn at h
  split at h
  · exact cpuStep_keepsInv h
  · exact (cpuStep_keepsInv h).of_sched
  · cases h; exact (hostAct_keepsInv _ _).of_sched

/-- R75: only a running machine takes a turn. -/
theorem step_keepsInv (h : Machine.step s = .next t) : KeepsInv s t := by
  cases status : s.status with
  | running => exact takeTurn_keepsInv ((step_running status).symm.trans h)
  | exited c => exact nomatch (step_exited status).symm.trans h
  | fault r => exact nomatch (step_faulted status).symm.trans h

/-- Settles O13: every turn keeps the invariant's parts and leaves no decode-transient state (`step_keepsInv`). -/
theorem stepKeepsInvariant : Obligations.StepKeepsInvariant := by
  unfold Obligations.StepKeepsInvariant
  intro s t h
  obtain ⟨kept, tr⟩ := step_keepsInv h
  exact ⟨kept.inv tr, kept.params⟩

end Sys2Proof.Proofs
end

section
/-! SUPPORT. The decoder as a relation: which bytes an opcode's form gives which instruction (R204 to R217), and that the
decoder reads an instruction exactly where the bytes of that relation stand. -/

namespace Sys2Proof.Proofs

/-! ### `rm` operands (R204 to R207) -/

/-- The bytes of an operand of either width. -/
def RM.enc (g : BitVec 3) : RM → List Byte
  | .reg i => [modRM 3 g i]
  | .mem m => m.enc g

def RM.wf : RM → Bool
  | .reg _ => true
  | .mem m => m.wf

theorem to8_wf (e : RM) : e.to8.wf = RM.wf e := by cases e <;> rfl

theorem to16_wf (e : RM) : e.to16.wf = RM.wf e := by cases e <;> rfl

theorem to8_enc (e : RM) (g : BitVec 3) : e.to8.enc g = RM.enc g e := by
  cases e with
  | reg i => rw [RM.to8, RM8.enc, Laws.Reg8.idx_ofIdx, RM.enc]
  | mem m => rfl

theorem to16_enc (e : RM) (g : BitVec 3) : e.to16.enc g = RM.enc g e := by
  cases e with
  | reg i => rw [RM.to16, RM16.enc, Laws.Reg16.idx_ofIdx, RM.enc]
  | mem m => rfl

/-- Every 8-bit operand is one before its width is known. -/
theorem exists_to8 (e : RM8) : ∃ r : RM, r.to8 = e := by
  cases e with
  | reg r => exact ⟨.reg r.idx, congrArg RM8.reg (Laws.Reg8.ofIdx_idx r)⟩
  | mem m => exact ⟨.mem m, rfl⟩

theorem exists_to16 (e : RM16) : ∃ r : RM, r.to16 = e := by
  cases e with
  | reg r => exact ⟨.reg r.idx, congrArg RM16.reg (Laws.Reg16.ofIdx_idx r)⟩
  | mem m => exact ⟨.mem m, rfl⟩

/-- R205: a `mod` field of the operand's kind, 3 for a register. -/
def RM.kind : RM → Nat
  | .reg _ => 3
  | .mem _ => 0

theorem kind_shape_reg (g i : BitVec 3) : RM.kind (RM.shape (modRM 3 g i)) = 3 := by simp [RM.shape, RM.kind]

theorem kind_shape_mem {m : Byte} (h : modField m ≠ 3) : RM.kind (RM.shape m) = 0 := by
  rw [RM.shape, if_neg h, RM.kind]

theorem shape_wf (m : Byte) : RM.wf (RM.shape m) = true := by
  unfold RM.shape
  split <;> rfl

/-- An operand's bytes are a ModRM byte, which shows its kind, and displacement bytes, from which `takeRM` reads it. -/
theorem RM.enc_spec {e : RM} (h : RM.wf e = true) (g : BitVec 3) :
    ∃ m ds, RM.enc g e = m :: ds ∧ regField m = g ∧ RM.kind (RM.shape m) = RM.kind e ∧
      ∀ k rest, takeRM m k (ds ++ rest) = k e rest := by
  cases e with
  | reg i => exact ⟨_, [], rfl, Laws.regField_modRM 3 g i, kind_shape_reg g i, Laws.takeRM_reg g i⟩
  | mem a =>
    obtain ⟨m, ds, enc, reg, mod, take⟩ := Laws.Mem.enc_spec a g h
    exact ⟨m, ds, enc, reg, kind_shape_mem mod, take⟩

/-! ### What the reading functions read (R209) -/

theorem take8_eq_ok {k : Byte → List Byte → Decoded} {bs : List Byte} {x : Instr × List Byte} :
    take8 k bs = .ok x ↔ ∃ v r, bs = v :: r ∧ k v r = .ok x := by
  constructor
  · intro h
    match bs, h with
    | v :: r, h => exact ⟨v, r, rfl, h⟩
  · rintro ⟨v, r, rfl, h⟩
    exact h

theorem take16_eq_ok {k : Word → List Byte → Decoded} {bs : List Byte} {x : Instr × List Byte} :
    take16 k bs = .ok x ↔ ∃ v r, bs = le16 v ++ r ∧ k v r = .ok x := by
  constructor
  · intro h
    match bs, h with
    | lo :: hi :: r, h => exact ⟨mkWord hi lo, r, by simp [le16], h⟩
  · rintro ⟨v, r, rfl, h⟩
    rwa [Laws.take16_le16]

/-- A ModRM byte of which two fields are known. -/
theorem modRM_of_fields {m : Byte} {md : Nat} {rm : BitVec 3} (hmd : (modField m).toNat = md) (hrm : rmField m = rm) :
    m = modRM (BitVec.ofNat 2 md) (regField m) rm := by
  rw [← hmd, ← hrm, BitVec.ofNat_toNat, BitVec.setWidth_eq, Laws.modRM_fields]

theorem rmField_of_base {m : Byte} {b : Base} (h : Base.ofIdx (rmField m) = b) : rmField m = b.idx := by
  rw [← h, Laws.Base.idx_ofIdx]

/-- What `takeRM` reads is a well-formed operand, and its bytes are those that were read. -/
theorem takeRM_ok {m : Byte} {k : RM → List Byte → Decoded} {bs : List Byte} {x : Instr × List Byte}
    (h : takeRM m k bs = .ok x) : ∃ e r, RM.wf e = true ∧ RM.enc (regField m) e ++ r = m :: bs ∧ k e r = .ok x := by
  unfold takeRM at h
  dsimp only at h
  split at h
  · next h0 =>
    split at h
    · next hb =>
      obtain ⟨d, r, rfl, hk⟩ := take16_eq_ok.mp h
      have hm := modRM_of_fields h0 (rmField_of_base hb)
      exact ⟨.mem (.direct d), r, rfl, congrArg (· :: (le16 d ++ r)) hm.symm, hk⟩
    · next hb =>
      have hm := modRM_of_fields h0 (rmField_of_base rfl)
      exact ⟨.mem (.base _), bs, by simpa [RM.wf, Mem.wf] using hb, congrArg (· :: bs) hm.symm, h⟩
  · next h1 =>
    obtain ⟨d, r, rfl, hk⟩ := take8_eq_ok.mp h
    have hm := modRM_of_fields h1 (rmField_of_base rfl)
    exact ⟨.mem (.disp8 _ d), r, rfl, congrArg (· :: d :: r) hm.symm, hk⟩
  · next h2 =>
    obtain ⟨d, r, rfl, hk⟩ := take16_eq_ok.mp h
    have hm := modRM_of_fields h2 (rmField_of_base rfl)
    exact ⟨.mem (.disp16 _ d), r, rfl, congrArg (· :: (le16 d ++ r)) hm.symm, hk⟩
  · next h0 h1 h2 =>
    have h3 : (modField m).toNat = 3 := by
      have lt : (modField m).toNat < 4 := (modField m).isLt
      simp only [imp_false] at h0 h1 h2
      omega
    exact ⟨.reg (rmField m), bs, rfl, congrArg (· :: bs) (modRM_of_fields h3 rfl).symm, h⟩

/-! ### The relation -/

/-- What follows an operand gives an instruction its last bytes. -/
inductive Tail.Gives : Tail → Instr → List Byte → Prop
  | done (i : Instr) : Gives (.done i) i []
  | imm8 (k : Byte → Instr) (v : Byte) : Gives (.imm8 k) (k v) [v]
  | imm16 (k : Word → Instr) (v : Word) : Gives (.imm16 k) (k v) (le16 v)

/-- R217: the form of the opcode `op` gives an instruction the bytes after the opcode. -/
inductive Form.Gives (op : Byte) : Form → Instr → List Byte → Prop
  | plain (i : Instr) : Gives op (.plain i) i []
  | imm8 (k : Byte → Instr) (v : Byte) : Gives op (.imm8 k) (k v) [v]
  | imm16 (k : Word → Instr) (v : Word) : Gives op (.imm16 k) (k v) (le16 v)
  | ptr (k : Word → Word → Instr) (off seg : Word) : Gives op (.ptr k) (k off seg) (le16 off ++ le16 seg)
  | modrm {k : BitVec 3 → RM → Option Tail} {g : BitVec 3} {e : RM} {t : Tail} {i : Instr} {p : List Byte}
      (wf : RM.wf e = true) (cell : k g e = some t) (last : Tail.Gives t i p) : Gives op (.modrm k) i (RM.enc g e ++ p)
  | badModRM {k : BitVec 3 → RM → Option Tail} {m : Byte} (rejects : k (regField m) (RM.shape m) = none) :
      Gives op (.modrm k) (.ud op (some m)) [m]
  | undefined : Gives op .undefined (.ud op none) []

theorem tail_take_eq_ok {t : Tail} {bs rest : List Byte} {i : Instr} :
    t.take bs = .ok (i, rest) ↔ ∃ p, Tail.Gives t i p ∧ p ++ rest = bs := by
  unfold Tail.take
  constructor
  · intro h
    cases t with
    | done j => cases h; exact ⟨_, .done i, rfl⟩
    | imm8 k => obtain ⟨v, r, rfl, hk⟩ := take8_eq_ok.mp h; cases hk; exact ⟨_, .imm8 k v, rfl⟩
    | imm16 k => obtain ⟨v, r, rfl, hk⟩ := take16_eq_ok.mp h; cases hk; exact ⟨_, .imm16 k v, rfl⟩
  · rintro ⟨p, gives, rfl⟩
    cases gives with
    | done => rfl
    | imm8 k v => rfl
    | imm16 k v => exact Laws.take16_le16 _ v rest

/-- Whether a ModRM byte's encoding is undefined depends on its `reg` field and the kind of its operand only. -/
def KindOnly (k : BitVec 3 → RM → Option Tail) : Prop :=
  ∀ g e e', RM.wf e = true → RM.wf e' = true → RM.kind e = RM.kind e' → (k g e).isNone = (k g e').isNone

/-- The bytes after an opcode with a ModRM byte. -/
theorem modrm_take_eq_ok {op : Byte} {k : BitVec 3 → RM → Option Tail} {bs rest : List Byte} {i : Instr}
    (hk : KindOnly k) : (Form.modrm k).take op bs = .ok (i, rest) ↔
      ∃ p, Form.Gives op (.modrm k) i p ∧ p ++ rest = bs := by
  rw [Form.take]
  constructor
  · intro h
    obtain ⟨m, r, rfl, read⟩ := take8_eq_ok.mp h
    split at read
    · next hn => cases read; exact ⟨_, .badModRM (Option.isNone_iff_eq_none.mp hn), rfl⟩
    · next hn =>
      obtain ⟨e, r', wf, enc, read⟩ := takeRM_ok read
      obtain ⟨m', ds, enc', -, kind, -⟩ := RM.enc_spec wf (regField m)
      obtain ⟨rfl, -⟩ := List.cons.inj ((congrArg (· ++ r') enc').symm.trans enc)
      split at read
      · next t ht =>
        obtain ⟨p, last, rfl⟩ := tail_take_eq_ok.mp read
        exact ⟨_, .modrm wf ht last, (List.append_assoc ..).trans enc⟩
      · next ht => exact absurd ((hk _ _ _ (shape_wf m') wf kind).trans (congrArg Option.isNone ht)) hn
  · rintro ⟨p, gives, rfl⟩
    cases gives with
    | badModRM rejects => exact if_pos (Option.isNone_iff_eq_none.mpr rejects)
    | @modrm _ g e t _ p wf cell last =>
      obtain ⟨m, ds, enc, rfl, kind, take⟩ := RM.enc_spec wf g
      have defined : ¬(k (regField m) (RM.shape m)).isNone = true := by
        rw [hk _ _ _ (shape_wf m) wf kind, cell]
        exact Bool.false_ne_true
      rw [enc, List.append_assoc, List.cons_append, Laws.take8_cons, if_neg defined, take, cell]
      exact tail_take_eq_ok.mpr ⟨p, last, rfl⟩

end Sys2Proof.Proofs
end

section
/-! SUPPORT. The opcode map and the group tables (R215, R216) against the encoder and the list of undefined encodings (R218).
Every cell gives a well-formed instruction the bytes that `encode` gives it, and rejects exactly the ModRM bytes listed. -/

namespace Sys2Proof.Proofs

/-- The instruction is well-formed and its bytes are `bs`. -/
def EncodesAs (i : Instr) (bs : List Byte) : Prop := i.wf = true ∧ encode i = bs

/-- R218: no encoding of the opcode is undefined. -/
structure AllDefined (op : Byte) : Prop where
  opcode : undefinedOpcode op.toNat = false
  modRM : ∀ md reg, undefinedModRM op.toNat md reg = false

/-- What follows an operand is right after the opcode and operand bytes `bs`. -/
def Tail.Sound (bs : List Byte) : Tail → Prop
  | .done i => EncodesAs i bs
  | .imm8 k => ∀ v, EncodesAs (k v) (bs ++ [v])
  | .imm16 k => ∀ v, EncodesAs (k v) (bs ++ le16 v)

/-- What a ModRM byte with field `g` and operand `e` selects is right after the opcode `op`. -/
def CellSound (op : Byte) (g : BitVec 3) (e : RM) : Option Tail → Prop
  | none => undefinedModRM op.toNat (RM.kind e) g.toNat = true
  | some t => undefinedModRM op.toNat (RM.kind e) g.toNat = false ∧ Tail.Sound (op :: RM.enc g e) t

/-- The form is right for the opcode `op`. -/
def Form.Sound (op : Byte) : Form → Prop
  | .plain i => AllDefined op ∧ EncodesAs i [op]
  | .imm8 k => AllDefined op ∧ ∀ v, EncodesAs (k v) [op, v]
  | .imm16 k => AllDefined op ∧ ∀ v, EncodesAs (k v) (op :: le16 v)
  | .ptr k => AllDefined op ∧ ∀ off seg, EncodesAs (k off seg) (op :: (le16 off ++ le16 seg))
  | .modrm k => undefinedOpcode op.toNat = false ∧ ∀ g e, RM.wf e = true → CellSound op g e (k g e)
  | .undefined => undefinedOpcode op.toNat = true ∧ ∀ md reg, undefinedModRM op.toNat md reg = false

/-! ### The shapes of a cell

For the cells of the map, which name their instruction, `wf` and `enc` hold by evaluation. -/

section Shapes

variable {op : Byte} {g : BitVec 3} {e : RM}

theorem plain_sound {i : Instr} (defined : AllDefined op := by exact ⟨rfl, fun _ _ => rfl⟩) (wf : i.wf = true := by rfl)
    (enc : encode i = [op] := by rfl) : Form.Sound op (.plain i) :=
  ⟨defined, wf, enc⟩

theorem imm8_sound {mk : Byte → Instr} (defined : AllDefined op := by exact ⟨rfl, fun _ _ => rfl⟩)
    (wf : ∀ v, (mk v).wf = true := by exact fun _ => rfl) (enc : ∀ v, encode (mk v) = [op, v] := by exact fun _ => rfl) :
    Form.Sound op (.imm8 mk) :=
  ⟨defined, fun v => ⟨wf v, enc v⟩⟩

theorem imm16_sound {mk : Word → Instr} (defined : AllDefined op := by exact ⟨rfl, fun _ _ => rfl⟩)
    (wf : ∀ v, (mk v).wf = true := by exact fun _ => rfl)
    (enc : ∀ v, encode (mk v) = op :: le16 v := by exact fun _ => rfl) : Form.Sound op (.imm16 mk) :=
  ⟨defined, fun v => ⟨wf v, enc v⟩⟩

theorem ptr_sound {mk : Word → Word → Instr} (defined : AllDefined op := by exact ⟨rfl, fun _ _ => rfl⟩)
    (wf : ∀ off seg, (mk off seg).wf = true := by exact fun _ _ => rfl)
    (enc : ∀ off seg, encode (mk off seg) = op :: (le16 off ++ le16 seg) := by exact fun _ _ => rfl) :
    Form.Sound op (.ptr mk) :=
  ⟨defined, fun off seg => ⟨wf off seg, enc off seg⟩⟩

theorem undefined_sound (opcode : undefinedOpcode op.toNat = true := by rfl)
    (modRM : ∀ md reg, undefinedModRM op.toNat md reg = false := by exact fun _ _ => rfl) : Form.Sound op .undefined :=
  ⟨opcode, modRM⟩

theorem done8_sound {mk : RM8 → Instr} (h : RM.wf e = true) (wf : ∀ x, (mk x).wf = x.wf := by exact fun _ => rfl)
    (enc : ∀ x, encode (mk x) = op :: x.enc g := by exact fun _ => rfl) :
    Tail.Sound (op :: RM.enc g e) (.done (mk e.to8)) :=
  ⟨(wf _).trans ((to8_wf e).trans h), (enc _).trans (congrArg (op :: ·) (to8_enc e g))⟩

theorem done16_sound {mk : RM16 → Instr} (h : RM.wf e = true) (wf : ∀ x, (mk x).wf = x.wf := by exact fun _ => rfl)
    (enc : ∀ x, encode (mk x) = op :: x.enc g := by exact fun _ => rfl) :
    Tail.Sound (op :: RM.enc g e) (.done (mk e.to16)) :=
  ⟨(wf _).trans ((to16_wf e).trans h), (enc _).trans (congrArg (op :: ·) (to16_enc e g))⟩

theorem imm8_rm8_sound {mk : RM8 → Byte → Instr} (h : RM.wf e = true)
    (wf : ∀ x v, (mk x v).wf = x.wf := by exact fun _ _ => rfl)
    (enc : ∀ x v, encode (mk x v) = op :: (x.enc g ++ [v]) := by exact fun _ _ => rfl) :
    Tail.Sound (op :: RM.enc g e) (.imm8 (mk e.to8)) :=
  fun v => ⟨(wf _ v).trans ((to8_wf e).trans h), (enc _ v).trans (congrArg (op :: · ++ [v]) (to8_enc e g))⟩

theorem imm8_rm16_sound {mk : RM16 → Byte → Instr} (h : RM.wf e = true)
    (wf : ∀ x v, (mk x v).wf = x.wf := by exact fun _ _ => rfl)
    (enc : ∀ x v, encode (mk x v) = op :: (x.enc g ++ [v]) := by exact fun _ _ => rfl) :
    Tail.Sound (op :: RM.enc g e) (.imm8 (mk e.to16)) :=
  fun v => ⟨(wf _ v).trans ((to16_wf e).trans h), (enc _ v).trans (congrArg (op :: · ++ [v]) (to16_enc e g))⟩

theorem imm16_rm16_sound {mk : RM16 → Word → Instr} (h : RM.wf e = true)
    (wf : ∀ x v, (mk x v).wf = x.wf := by exact fun _ _ => rfl)
    (enc : ∀ x v, encode (mk x v) = op :: (x.enc g ++ le16 v) := by exact fun _ _ => rfl) :
    Tail.Sound (op :: RM.enc g e) (.imm16 (mk e.to16)) :=
  fun v => ⟨(wf _ v).trans ((to16_wf e).trans h), (enc _ v).trans (congrArg (op :: · ++ le16 v) (to16_enc e g))⟩

theorem formRM8_sound {mk : RM8 → Reg8 → Instr} (defined : AllDefined op := by exact ⟨rfl, fun _ _ => rfl⟩)
    (wf : ∀ x r, (mk x r).wf = x.wf := by exact fun _ _ => rfl)
    (enc : ∀ x r, encode (mk x r) = op :: x.enc r.idx := by exact fun _ _ => rfl) : Form.Sound op (formRM8 mk) :=
  ⟨defined.opcode, fun g _ h => ⟨defined.modRM _ _, done8_sound h (fun x => wf x _)
    fun x => (enc x _).trans (congrArg (op :: x.enc ·) (Laws.Reg8.idx_ofIdx g))⟩⟩

theorem formRM16_sound {mk : RM16 → Reg16 → Instr} (defined : AllDefined op := by exact ⟨rfl, fun _ _ => rfl⟩)
    (wf : ∀ x r, (mk x r).wf = x.wf := by exact fun _ _ => rfl)
    (enc : ∀ x r, encode (mk x r) = op :: x.enc r.idx := by exact fun _ _ => rfl) : Form.Sound op (formRM16 mk) :=
  ⟨defined.opcode, fun g _ h => ⟨defined.modRM _ _, done16_sound h (fun x => wf x _)
    fun x => (enc x _).trans (congrArg (op :: x.enc ·) (Laws.Reg16.idx_ofIdx g))⟩⟩

theorem formEsc_sound {mk : RM16 → BitVec 3 → Instr} (defined : AllDefined op := by exact ⟨rfl, fun _ _ => rfl⟩)
    (wf : ∀ x r, (mk x r).wf = x.wf := by exact fun _ _ => rfl)
    (enc : ∀ x r, encode (mk x r) = op :: x.enc r := by exact fun _ _ => rfl) : Form.Sound op (formEsc mk) :=
  ⟨defined.opcode, fun g _ h => ⟨defined.modRM _ _, done16_sound h (fun x => wf x g) fun x => enc x g⟩⟩

/-- R215: LEA, LES and LDS reject a register operand. -/
theorem formMem_sound {mk : Mem → Reg16 → Instr} (opcode : undefinedOpcode op.toNat = false := by rfl)
    (reg : ∀ g, undefinedModRM op.toNat 3 g = true := by exact fun _ => rfl)
    (mem : ∀ g, undefinedModRM op.toNat 0 g = false := by exact fun _ => rfl)
    (wf : ∀ m r, (mk m r).wf = m.wf := by exact fun _ _ => rfl)
    (enc : ∀ m r, encode (mk m r) = op :: m.enc r.idx := by exact fun _ _ => rfl) : Form.Sound op (formMem mk) := by
  refine ⟨opcode, fun g e h => ?_⟩
  cases e with
  | reg _ => exact reg _
  | mem m => exact ⟨mem _, (wf m _).trans h, (enc m _).trans (congrArg (op :: m.enc ·) (Laws.Reg16.idx_ofIdx g))⟩

/-- R305, R312: an opcode whose `reg` field must be 0. -/
theorem zeroOnly_sound {t : RM → Tail} (sound : ∀ e, RM.wf e = true → Tail.Sound (op :: RM.enc 0 e) (t e))
    (opcode : undefinedOpcode op.toNat = false := by rfl)
    (reg : ∀ md g, undefinedModRM op.toNat md g = (g != 0) := by exact fun _ _ => Bool.or_false _) :
    Form.Sound op (.modrm fun g e => if g = 0 then some (t e) else none) := by
  refine ⟨opcode, fun g e h => ?_⟩
  dsimp only
  split
  · next h0 => subst h0; exact ⟨reg _ _, sound e h⟩
  · next h0 => exact (reg _ _).trans (bne_iff_ne.mpr fun h => h0 (BitVec.eq_of_toNat_eq h))

end Shapes

/-! ### The groups (R216) -/

/-- The eight values of a `reg` field. -/
theorem regField_cases {P : BitVec 3 → Prop} (r0 : P 0) (r1 : P 1) (r2 : P 2) (r3 : P 3) (r4 : P 4) (r5 : P 5) (r6 : P 6)
    (r7 : P 7) (g : BitVec 3) : P g := by
  match g with
  | ⟨0⟩ => exact r0
  | ⟨1⟩ => exact r1
  | ⟨2⟩ => exact r2
  | ⟨3⟩ => exact r3
  | ⟨4⟩ => exact r4
  | ⟨5⟩ => exact r5
  | ⟨6⟩ => exact r6
  | ⟨7⟩ => exact r7
  | ⟨⟨n + 8, h⟩⟩ => exact absurd h (by omega)

section Groups

variable (g : BitVec 3) {e : RM} (h : RM.wf e = true)

include h

theorem grp1Eb_sound : CellSound 0x80 g e (grp1Eb g e) := by
  cases g using regField_cases with
  | r0 | r1 | r2 | r3 | r4 | r5 | r6 | r7 => exact ⟨rfl, imm8_rm8_sound h⟩

theorem grp1Ev_sound : CellSound 0x81 g e (grp1Ev g e) := by
  cases g using regField_cases with
  | r0 | r1 | r2 | r3 | r4 | r5 | r6 | r7 => exact ⟨rfl, imm16_rm16_sound h⟩

theorem grp1Eb82_sound : CellSound 0x82 g e (grp1Eb82 g e) := by
  cases g using regField_cases with
  | r0 | r1 | r2 | r3 | r4 | r5 | r6 | r7 => exact ⟨rfl, imm8_rm8_sound h⟩

theorem grp1EvIb_sound : CellSound 0x83 g e (grp1EvIb g e) := by
  cases g using regField_cases with
  | r0 | r1 | r2 | r3 | r4 | r5 | r6 | r7 => exact ⟨rfl, imm8_rm16_sound h⟩

theorem grp2Eb1_sound : CellSound 0xD0 g e (grp2Eb1 g e) := by
  cases g using regField_cases with
  | r0 | r1 | r2 | r3 | r4 | r5 | r7 => exact ⟨rfl, done8_sound h⟩
  | r6 => rfl

theorem grp2Ev1_sound : CellSound 0xD1 g e (grp2Ev1 g e) := by
  cases g using regField_cases with
  | r0 | r1 | r2 | r3 | r4 | r5 | r7 => exact ⟨rfl, done16_sound h⟩
  | r6 => rfl

theorem grp2EbCl_sound : CellSound 0xD2 g e (grp2EbCl g e) := by
  cases g using regField_cases with
  | r0 | r1 | r2 | r3 | r4 | r5 | r7 => exact ⟨rfl, done8_sound h⟩
  | r6 => rfl

theorem grp2EvCl_sound : CellSound 0xD3 g e (grp2EvCl g e) := by
  cases g using regField_cases with
  | r0 | r1 | r2 | r3 | r4 | r5 | r7 => exact ⟨rfl, done16_sound h⟩
  | r6 => rfl

theorem grp3Eb_sound : CellSound 0xF6 g e (grp3Eb g e) := by
  cases g using regField_cases with
  | r0 => exact ⟨rfl, imm8_rm8_sound h⟩
  | r1 => rfl
  | r2 | r3 | r4 | r5 | r6 | r7 => exact ⟨rfl, done8_sound h⟩

theorem grp3Ev_sound : CellSound 0xF7 g e (grp3Ev g e) := by
  cases g using regField_cases with
  | r0 => exact ⟨rfl, imm16_rm16_sound h⟩
  | r1 => rfl
  | r2 | r3 | r4 | r5 | r6 | r7 => exact ⟨rfl, done16_sound h⟩

theorem grp4_sound : CellSound 0xFE g e (grp4 g e) := by
  cases g using regField_cases with
  | r0 | r1 => exact ⟨rfl, done8_sound h⟩
  | r2 | r3 | r4 | r5 | r6 => rfl
  | r7 =>
    cases e with
    | reg rm => exact ⟨rfl, fun _ => ⟨rfl, rfl⟩⟩
    | mem m => rfl

theorem grp5_sound : CellSound 0xFF g e (grp5 g e) := by
  cases g using regField_cases with
  | r0 | r1 | r2 | r4 | r6 => exact ⟨rfl, done16_sound h⟩
  | r3 | r5 =>
    cases e with
    | reg rm => rfl
    | mem m => exact ⟨rfl, h, rfl⟩
  | r7 => rfl

/-- R303: MOV to a segment register. -/
theorem grp8E_sound : CellSound 0x8E g e (grp8E g e) := by
  cases g using regField_cases with
  | r0 => exact ⟨rfl, done16_sound h⟩
  | r2 | r3 => exact ⟨rfl, done16_sound (mk := (.movSwEwSsDs · _)) h fun _ => Bool.and_true _⟩
  | r1 | r4 | r5 | r6 | r7 => rfl

/-- R302: MOV from a segment register. -/
theorem movEwSw_sound :
    CellSound 0x8C g e (if g.toNat < 4 then some (.done (.movEwSw e.to16 (SegReg.ofIdx g))) else none) := by
  cases g using regField_cases with
  | r0 | r1 | r2 | r3 => exact ⟨rfl, done16_sound (mk := (.movEwSw · _)) h⟩
  | r4 | r5 | r6 | r7 => rfl

end Groups

/-! ### The opcode map (R215) -/

/-- The sixteen cells of a row. -/
theorem nibble_cases {P : Fin 16 → Prop} (x0 : P 0) (x1 : P 1) (x2 : P 2) (x3 : P 3) (x4 : P 4) (x5 : P 5) (x6 : P 6)
    (x7 : P 7) (x8 : P 8) (x9 : P 9) (xA : P 10) (xB : P 11) (xC : P 12) (xD : P 13) (xE : P 14) (xF : P 15) (lo : Fin 16) :
    P lo := by
  fin_cases lo <;> assumption

/-- Every cell of a row of the opcode map is right. -/
def RowSound (hi : Nat) (row : Nat → Form) : Prop := ∀ lo : Fin 16, Form.Sound (BitVec.ofNat 8 (16 * hi + lo)) (row lo)

theorem opRow0_sound : RowSound 0 opRow0 := by
  intro lo
  cases lo using nibble_cases with
  | x0 | x2 | x8 | xA => exact formRM8_sound
  | x1 | x3 | x9 | xB => exact formRM16_sound
  | x4 | xC => exact imm8_sound
  | x5 | xD => exact imm16_sound
  | x6 | x7 | xE => exact plain_sound
  | xF => exact undefined_sound

theorem opRow1_sound : RowSound 1 opRow1 := by
  intro lo
  cases lo using nibble_cases with
  | x0 | x2 | x8 | xA => exact formRM8_sound
  | x1 | x3 | x9 | xB => exact formRM16_sound
  | x4 | xC => exact imm8_sound
  | x5 | xD => exact imm16_sound
  | x6 | x7 | xE | xF => exact plain_sound

theorem opRow2_sound : RowSound 2 opRow2 := by
  intro lo
  cases lo using nibble_cases with
  | x0 | x2 | x8 | xA => exact formRM8_sound
  | x1 | x3 | x9 | xB => exact formRM16_sound
  | x4 | xC => exact imm8_sound
  | x5 | xD => exact imm16_sound
  | x6 | x7 | xE | xF => exact plain_sound

theorem opRow3_sound : RowSound 3 opRow3 := by
  intro lo
  cases lo using nibble_cases with
  | x0 | x2 | x8 | xA => exact formRM8_sound
  | x1 | x3 | x9 | xB => exact formRM16_sound
  | x4 | xC => exact imm8_sound
  | x5 | xD => exact imm16_sound
  | x6 | x7 | xE | xF => exact plain_sound

theorem opRow4_sound : RowSound 4 opRow4 := by
  intro lo
  cases lo using nibble_cases with
  | _ => exact plain_sound

theorem opRow5_sound : RowSound 5 opRow5 := by
  intro lo
  cases lo using nibble_cases with
  | _ => exact plain_sound

theorem opRow6_sound : RowSound 6 opRow6 := by
  intro lo
  cases lo using nibble_cases with
  | _ => exact undefined_sound

theorem opRow7_sound : RowSound 7 opRow7 := by
  intro lo
  cases lo using nibble_cases with
  | _ => exact imm8_sound

theorem opRow8_sound : RowSound 8 opRow8 := by
  intro lo
  cases lo using nibble_cases with
  | x0 => exact ⟨rfl, fun g _ h => grp1Eb_sound g h⟩
  | x1 => exact ⟨rfl, fun g _ h => grp1Ev_sound g h⟩
  | x2 => exact ⟨rfl, fun g _ h => grp1Eb82_sound g h⟩
  | x3 => exact ⟨rfl, fun g _ h => grp1EvIb_sound g h⟩
  | x4 | x6 | x8 | xA => exact formRM8_sound
  | x5 | x7 | x9 | xB => exact formRM16_sound
  | xC => exact ⟨rfl, fun g _ h => movEwSw_sound g h⟩
  | xD => exact formMem_sound
  | xE => exact ⟨rfl, fun g _ h => grp8E_sound g h⟩
  | xF => exact zeroOnly_sound fun _ h => done16_sound h

theorem opRow9_sound : RowSound 9 opRow9 := by
  intro lo
  cases lo using nibble_cases with
  | xA => exact ptr_sound
  | _ => exact plain_sound

theorem opRowA_sound : RowSound 10 opRowA := by
  intro lo
  cases lo using nibble_cases with
  | x8 => exact imm8_sound
  | x0 | x1 | x2 | x3 | x9 => exact imm16_sound
  | x4 | x5 | x6 | x7 | xA | xB | xC | xD | xE | xF => exact plain_sound

theorem opRowB_sound : RowSound 11 opRowB := by
  intro lo
  cases lo using nibble_cases with
  | x0 | x1 | x2 | x3 | x4 | x5 | x6 | x7 => exact imm8_sound
  | x8 | x9 | xA | xB | xC | xD | xE | xF => exact imm16_sound

theorem opRowC_sound : RowSound 12 opRowC := by
  intro lo
  cases lo using nibble_cases with
  | x0 | x1 | x8 | x9 => exact undefined_sound
  | xD => exact imm8_sound
  | x2 | xA => exact imm16_sound
  | x3 | xB | xC | xE | xF => exact plain_sound
  | x4 | x5 => exact formMem_sound
  | x6 => exact zeroOnly_sound fun _ h => imm8_rm8_sound h
  | x7 => exact zeroOnly_sound fun _ h => imm16_rm16_sound h

theorem opRowD_sound : RowSound 13 opRowD := by
  intro lo
  cases lo using nibble_cases with
  | x0 => exact ⟨rfl, fun g _ h => grp2Eb1_sound g h⟩
  | x1 => exact ⟨rfl, fun g _ h => grp2Ev1_sound g h⟩
  | x2 => exact ⟨rfl, fun g _ h => grp2EbCl_sound g h⟩
  | x3 => exact ⟨rfl, fun g _ h => grp2EvCl_sound g h⟩
  | x4 | x5 => exact imm8_sound
  | x6 => exact undefined_sound
  | x7 => exact plain_sound
  | x8 | x9 | xA | xB | xC | xD | xE | xF => exact formEsc_sound

theorem opRowE_sound : RowSound 14 opRowE := by
  intro lo
  cases lo using nibble_cases with
  | x0 | x1 | x2 | x3 | x4 | x5 | x6 | x7 | xB => exact imm8_sound
  | x8 | x9 => exact imm16_sound
  | xA => exact ptr_sound
  | xC | xD | xE | xF => exact plain_sound

theorem opRowF_sound : RowSound 15 opRowF := by
  intro lo
  cases lo using nibble_cases with
  | x0 | x2 | x3 | x4 | x5 | x8 | x9 | xA | xB | xC | xD => exact plain_sound
  | x1 => exact undefined_sound
  | x6 => exact ⟨rfl, fun g _ h => grp3Eb_sound g h⟩
  | x7 => exact ⟨rfl, fun g _ h => grp3Ev_sound g h⟩
  | xE => exact ⟨rfl, fun g _ h => grp4_sound g h⟩
  | xF => exact ⟨rfl, fun g _ h => grp5_sound g h⟩

theorem opForm_sound (op : Byte) : Form.Sound op (opForm op) := by
  have row {hi : Nat} {r : Nat → Form} (hr : RowSound hi r) (h : op.toNat / 16 = hi) :
      Form.Sound op (r (op.toNat % 16)) := by
    have cell : op = BitVec.ofNat 8 (16 * hi + op.toNat % 16) := by
      rw [← h, Nat.div_add_mod, BitVec.ofNat_toNat, BitVec.setWidth_eq]
    have sound := hr ⟨op.toNat % 16, Nat.mod_lt _ (by decide)⟩
    dsimp only at sound
    rwa [← cell] at sound
  unfold opForm
  dsimp only
  split
  · exact row opRow0_sound ‹_›
  · exact row opRow1_sound ‹_›
  · exact row opRow2_sound ‹_›
  · exact row opRow3_sound ‹_›
  · exact row opRow4_sound ‹_›
  · exact row opRow5_sound ‹_›
  · exact row opRow6_sound ‹_›
  · exact row opRow7_sound ‹_›
  · exact row opRow8_sound ‹_›
  · exact row opRow9_sound ‹_›
  · exact row opRowA_sound ‹_›
  · exact row opRowB_sound ‹_›
  · exact row opRowC_sound ‹_›
  · exact row opRowD_sound ‹_›
  · exact row opRowE_sound ‹_›
  · have lt := op.isLt
    simp only [imp_false] at *
    exact row opRowF_sound (by omega)

end Sys2Proof.Proofs
end

section
/-! SUPPORT. What the decoder reads is what the opcode map gives (R204 to R218): a well-formed instruction, from the bytes
of its encoding. -/

namespace Sys2Proof.Proofs

/-! ### The list of undefined ModRM bytes (R218) -/

theorem regField_toNat (m : Byte) : (regField m).toNat = m.toNat / 8 % 8 := by
  rw [regField, BitVec.extractLsb'_toNat, Nat.shiftRight_eq_div_pow]

theorem modField_eq_three (m : Byte) : modField m = 3 ↔ m.toNat / 64 = 3 := by
  rw [← BitVec.toNat_inj, modField, BitVec.extractLsb'_toNat, Nat.shiftRight_eq_div_pow]
  have lt := m.isLt
  change m.toNat / 64 % 4 = 3 ↔ _
  omega

theorem kind_shape_eq_three (m : Byte) : RM.kind (RM.shape m) = 3 ↔ m.toNat / 64 = 3 := by
  rw [← modField_eq_three, RM.shape]
  split
  · next h => exact iff_of_true rfl h
  · next h => exact iff_of_false (by decide) h

/-- Of `mod` the list asks only whether it names a register. -/
theorem undefinedModRM_congr {md md' : Nat} (h : md = 3 ↔ md' = 3) (op reg : Nat) :
    undefinedModRM op md reg = undefinedModRM op md' reg := by
  have h : (md == 3) = (md' == 3) := by rw [Bool.eq_iff_iff, beq_iff_eq, beq_iff_eq, h]
  simp only [undefinedModRM, bne, h]

theorem undefinedEncoding_some (op m : Byte) :
    undefinedEncoding op (some m) = undefinedModRM op.toNat (RM.kind (RM.shape m)) (regField m).toNat := by
  rw [undefinedEncoding, regField_toNat]
  exact undefinedModRM_congr (kind_shape_eq_three m).symm _ _

/-! ### What the forms give -/

theorem isNone_of_cellSound {op : Byte} {g : BitVec 3} {e : RM} {c : Option Tail} (h : CellSound op g e c) :
    c.isNone = undefinedModRM op.toNat (RM.kind e) g.toNat := by
  cases c with
  | none => exact h.symm
  | some t => exact h.1.symm

theorem kindOnly_of_sound {op : Byte} {k : BitVec 3 → RM → Option Tail} (h : Form.Sound op (.modrm k)) : KindOnly k := by
  intro g e e' wf wf' kind
  rw [isNone_of_cellSound (h.2 g e wf), isNone_of_cellSound (h.2 g e' wf'), kind]

theorem tail_gives_encodesAs {t : Tail} {bs p : List Byte} {i : Instr} (h : Tail.Sound bs t) (gives : Tail.Gives t i p) :
    EncodesAs i (bs ++ p) := by
  cases gives with
  | done => exact (List.append_nil bs).symm ▸ h
  | imm8 k v => exact h v
  | imm16 k v => exact h v

/-- Whatever a form gives is well-formed and has the bytes that `encode` gives it. -/
theorem gives_encodesAs {op : Byte} {f : Form} {i : Instr} {p : List Byte} (h : Form.Sound op f)
    (gives : Form.Gives op f i p) : EncodesAs i (op :: p) := by
  cases gives with
  | plain => exact h.2
  | imm8 k v => exact h.2 v
  | imm16 k v => exact h.2 v
  | ptr k off seg => exact h.2 off seg
  | @modrm k g e t _ p wf cell last =>
    have sound := h.2 g e wf
    rw [cell] at sound
    exact tail_gives_encodesAs sound.2 last
  | @badModRM k m rejects =>
    have listed := h.2 (regField m) _ (shape_wf m)
    rw [rejects] at listed
    exact ⟨(undefinedEncoding_some op m).trans listed, rfl⟩
  | undefined => exact ⟨h.1, rfl⟩

theorem form_take_eq_ok {op : Byte} {f : Form} {bs rest : List Byte} {i : Instr} (h : Form.Sound op f) :
    f.take op bs = .ok (i, rest) ↔ ∃ p, Form.Gives op f i p ∧ p ++ rest = bs := by
  cases f with
  | modrm k => exact modrm_take_eq_ok (kindOnly_of_sound h)
  | plain j =>
    constructor
    · intro read; cases read; exact ⟨_, .plain _, rfl⟩
    · rintro ⟨_, ⟨⟩, rfl⟩; rfl
  | undefined =>
    constructor
    · intro read; cases read; exact ⟨_, .undefined, rfl⟩
    · rintro ⟨_, ⟨⟩, rfl⟩; rfl
  | imm8 k =>
    rw [Form.take, take8_eq_ok]
    constructor
    · rintro ⟨v, r, rfl, read⟩; cases read; exact ⟨_, .imm8 k v, rfl⟩
    · rintro ⟨_, ⟨⟩, rfl⟩; exact ⟨_, _, rfl, rfl⟩
  | imm16 k =>
    rw [Form.take, take16_eq_ok]
    constructor
    · rintro ⟨v, r, rfl, read⟩; cases read; exact ⟨_, .imm16 k v, rfl⟩
    · rintro ⟨_, ⟨⟩, rfl⟩; exact ⟨_, _, rfl, rfl⟩
  | ptr k =>
    simp only [Form.take, take16_eq_ok]
    constructor
    · rintro ⟨off, _, rfl, seg, r, rfl, read⟩; cases read; exact ⟨_, .ptr k off seg, List.append_assoc ..⟩
    · rintro ⟨_, ⟨⟩, rfl⟩; exact ⟨_, _, List.append_assoc .., _, _, rfl, rfl⟩

/-- R214: the decoder reads `i` from `bs` and leaves `rest` exactly where the opcode's form gives `i` the bytes between. -/
theorem decode_eq_ok {bs rest : List Byte} {i : Instr} :
    decode bs = .ok (i, rest) ↔ ∃ op p, Form.Gives op (opForm op) i p ∧ op :: (p ++ rest) = bs := by
  constructor
  · intro h
    match bs, h with
    | op :: bs, h =>
      obtain ⟨p, gives, rfl⟩ := (form_take_eq_ok (opForm_sound op)).mp h
      exact ⟨op, p, gives, rfl⟩
  · rintro ⟨op, p, gives, rfl⟩
    exact (form_take_eq_ok (opForm_sound op)).mpr ⟨p, gives, rfl⟩

/-- Settles O3: the opcode map gives every instruction the bytes that `encode` gives it (`opForm_sound`). -/
theorem encodeInvertsDecode : Obligations.EncodeInvertsDecode := by
  unfold Obligations.EncodeInvertsDecode
  intro bs rest i h
  obtain ⟨op, p, gives, rfl⟩ := decode_eq_ok.mp h
  obtain ⟨wf, enc⟩ := gives_encodesAs (opForm_sound op) gives
  exact ⟨wf, congrArg (· ++ rest) enc⟩

/-! ### The length of an instruction (R217) -/

theorem enc_length_le (e : RM) (g : BitVec 3) : (RM.enc g e).length ≤ 3 := by
  cases e with
  | reg i => simp [RM.enc]
  | mem m => cases m <;> simp [RM.enc, Mem.enc, le16]

theorem tail_gives_length_le {t : Tail} {i : Instr} {p : List Byte} (h : Tail.Gives t i p) : p.length ≤ 2 := by
  cases h <;> simp [le16]

theorem gives_length_le {op : Byte} {f : Form} {i : Instr} {p : List Byte} (h : Form.Gives op f i p) : p.length ≤ 5 := by
  cases h with
  | plain | imm8 | imm16 | ptr | badModRM | undefined => simp [le16]
  | @modrm k g e t _ q wf cell last =>
    have operand := enc_length_le e g
    have tail := tail_gives_length_le last
    rw [List.length_append]
    omega

/-- Settles O4: six bytes hold an instruction (`decode_total`), an opcode and at most five bytes after it. -/
theorem sixBytesDecode : Obligations.SixBytesDecode := by
  unfold Obligations.SixBytesDecode
  intro bs h
  obtain ⟨i, rest, read⟩ := Laws.decode_total h
  obtain ⟨op, p, gives, rfl⟩ := decode_eq_ok.mp read
  have len := gives_length_le gives
  simp only [List.length_cons, List.length_append] at *
  exact ⟨i, rest, read, by omega, by omega⟩

end Sys2Proof.Proofs
end

section
/-! SUPPORT. Every well-formed instruction stands in the opcode map at the bytes that `encode` gives it (R215, R216, R218),
so that its encoding decodes to it. -/

namespace Sys2Proof.Proofs

/-- The opcode map gives the instruction the bytes that `encode` gives it. -/
def Mapped (i : Instr) : Prop := ∃ op p, encode i = op :: p ∧ Form.Gives op (opForm op) i p

/-! ### The shapes of an encoding -/

section Shapes

variable {op : Byte} {g : BitVec 3} {k : BitVec 3 → RM → Option Tail}

theorem modrm_mapped {i : Instr} {e : RM} {t : Tail} {p : List Byte} (form : opForm op = .modrm k) (wf : RM.wf e = true)
    (cell : k g e = some t) (last : Tail.Gives t i p) (enc : encode i = op :: (RM.enc g e ++ p)) : Mapped i :=
  ⟨op, _, enc, form ▸ .modrm wf cell last⟩

theorem done_mapped {i : Instr} {e : RM} (form : opForm op = .modrm k) (wf : RM.wf e = true)
    (cell : k g e = some (.done i)) (enc : encode i = op :: RM.enc g e) : Mapped i :=
  modrm_mapped form wf cell (.done i) (by rw [enc, List.append_nil])

theorem done8_mapped {mk : RM8 → Instr} {x : RM8} (wf : x.wf = true) (enc : ∀ x, encode (mk x) = op :: x.enc g)
    (form : opForm op = .modrm k) (cell : ∀ e, k g e = some (.done (mk e.to8))) : Mapped (mk x) := by
  obtain ⟨e, rfl⟩ := exists_to8 x
  exact done_mapped form (to8_wf e ▸ wf) (cell e) (to8_enc e g ▸ enc _)

theorem done16_mapped {mk : RM16 → Instr} {x : RM16} (wf : x.wf = true) (enc : ∀ x, encode (mk x) = op :: x.enc g)
    (form : opForm op = .modrm k) (cell : ∀ e, k g e = some (.done (mk e.to16))) : Mapped (mk x) := by
  obtain ⟨e, rfl⟩ := exists_to16 x
  exact done_mapped form (to16_wf e ▸ wf) (cell e) (to16_enc e g ▸ enc _)

theorem mem_mapped {mk : Mem → Instr} {m : Mem} (wf : m.wf = true) (enc : ∀ m, encode (mk m) = op :: m.enc g)
    (form : opForm op = .modrm k) (cell : ∀ m, k g (.mem m) = some (.done (mk m))) : Mapped (mk m) :=
  done_mapped (e := .mem m) form wf (cell m) (enc m)

theorem imm8_rm8_mapped {mk : RM8 → Byte → Instr} {x : RM8} {v : Byte} (wf : x.wf = true)
    (enc : ∀ x v, encode (mk x v) = op :: (x.enc g ++ [v])) (form : opForm op = .modrm k)
    (cell : ∀ e, k g e = some (.imm8 (mk e.to8))) : Mapped (mk x v) := by
  obtain ⟨e, rfl⟩ := exists_to8 x
  exact modrm_mapped form (to8_wf e ▸ wf) (cell e) (.imm8 _ v) (to8_enc e g ▸ enc _ v)

theorem imm8_rm16_mapped {mk : RM16 → Byte → Instr} {x : RM16} {v : Byte} (wf : x.wf = true)
    (enc : ∀ x v, encode (mk x v) = op :: (x.enc g ++ [v])) (form : opForm op = .modrm k)
    (cell : ∀ e, k g e = some (.imm8 (mk e.to16))) : Mapped (mk x v) := by
  obtain ⟨e, rfl⟩ := exists_to16 x
  exact modrm_mapped form (to16_wf e ▸ wf) (cell e) (.imm8 _ v) (to16_enc e g ▸ enc _ v)

theorem imm16_rm16_mapped {mk : RM16 → Word → Instr} {x : RM16} {v : Word} (wf : x.wf = true)
    (enc : ∀ x v, encode (mk x v) = op :: (x.enc g ++ le16 v)) (form : opForm op = .modrm k)
    (cell : ∀ e, k g e = some (.imm16 (mk e.to16))) : Mapped (mk x v) := by
  obtain ⟨e, rfl⟩ := exists_to16 x
  exact modrm_mapped form (to16_wf e ▸ wf) (cell e) (.imm16 _ v) (to16_enc e g ▸ enc _ v)

theorem formRM8_mapped {mk : RM8 → Reg8 → Instr} {x : RM8} {r : Reg8} (wf : x.wf = true)
    (enc : ∀ x r, encode (mk x r) = op :: x.enc r.idx) (form : opForm op = formRM8 mk) : Mapped (mk x r) :=
  done8_mapped (mk := (mk · r)) wf (enc · r) form fun e =>
    congrArg (fun q => some (Tail.done (mk e.to8 q))) (Laws.Reg8.ofIdx_idx r)

theorem formRM16_mapped {mk : RM16 → Reg16 → Instr} {x : RM16} {r : Reg16} (wf : x.wf = true)
    (enc : ∀ x r, encode (mk x r) = op :: x.enc r.idx) (form : opForm op = formRM16 mk) : Mapped (mk x r) :=
  done16_mapped (mk := (mk · r)) wf (enc · r) form fun e =>
    congrArg (fun q => some (Tail.done (mk e.to16 q))) (Laws.Reg16.ofIdx_idx r)

theorem formMem_mapped {mk : Mem → Reg16 → Instr} {m : Mem} {r : Reg16} (wf : m.wf = true)
    (enc : ∀ m r, encode (mk m r) = op :: m.enc r.idx) (form : opForm op = formMem mk) : Mapped (mk m r) :=
  mem_mapped (mk := (mk · r)) wf (enc · r) form fun m =>
    congrArg (fun q => some (Tail.done (mk m q))) (Laws.Reg16.ofIdx_idx r)

theorem formEsc_mapped {mk : RM16 → BitVec 3 → Instr} {x : RM16} {r : BitVec 3} (wf : x.wf = true)
    (enc : ∀ x r, encode (mk x r) = op :: x.enc r) (form : opForm op = formEsc mk) : Mapped (mk x r) :=
  done16_mapped (mk := (mk · r)) wf (enc · r) form fun _ => rfl

end Shapes

/-! ### Single rows -/

/-- R302: MOV from a segment register. -/
theorem movEwSw_mapped {e : RM16} (h : e.wf = true) (sr : SegReg) : Mapped (.movEwSw e sr) := by
  cases sr with
  | es | cs | ss | ds => exact done16_mapped (mk := (.movEwSw · _)) h (fun _ => rfl) rfl fun _ => rfl

/-- R303: MOV to SS and DS. -/
theorem movSwEwSsDs_mapped {e : RM16} {sr : SegReg} (h : (Instr.movSwEwSsDs e sr).wf = true) :
    Mapped (.movSwEwSsDs e sr) := by
  obtain ⟨wf, ssDs⟩ := Bool.and_eq_true_iff.mp h
  cases sr with
  | es | cs => exact absurd ssDs (by decide)
  | ss | ds => exact done16_mapped (mk := (.movSwEwSsDs · _)) wf (fun _ => rfl) rfl fun _ => rfl

/-- R712: CALLBACK. -/
theorem callbackIw_mapped (rm : BitVec 3) (id : Word) : Mapped (.callbackIw rm id) :=
  modrm_mapped (e := .reg rm) rfl rfl rfl (.imm16 _ id) rfl

/-- R218: the undefined opcodes of the list have no form. -/
theorem opForm_of_undefinedOpcode {op : Byte} (h : undefinedOpcode op.toNat = true) : opForm op = .undefined := by
  have sound := opForm_sound op
  have clash (defined : undefinedOpcode op.toNat = false) : False := Bool.false_ne_true (defined.symm.trans h)
  cases form : opForm op with
  | undefined => rfl
  | plain | imm8 | imm16 | ptr => rw [form] at sound; exact (clash sound.1.opcode).elim
  | modrm => rw [form] at sound; exact (clash sound.1).elim

/-- R218: after an opcode whose ModRM byte is in the list stands a ModRM byte, and the opcode map rejects it. -/
theorem opForm_of_undefinedModRM {op m : Byte} (h : undefinedEncoding op (some m) = true) :
    ∃ k, opForm op = .modrm k ∧ k (regField m) (RM.shape m) = none := by
  have sound := opForm_sound op
  rw [undefinedEncoding_some] at h
  have clash (defined : ∀ md reg, undefinedModRM op.toNat md reg = false) : False :=
    Bool.false_ne_true ((defined _ _).symm.trans h)
  cases form : opForm op with
  | plain | imm8 | imm16 | ptr => rw [form] at sound; exact (clash sound.1.modRM).elim
  | undefined => rw [form] at sound; exact (clash sound.2).elim
  | modrm k =>
    rw [form] at sound
    have cell := isNone_of_cellSound (sound.2 (regField m) _ (shape_wf m))
    exact ⟨k, rfl, Option.isNone_iff_eq_none.mp (cell.trans h)⟩

theorem ud_mapped {op : Byte} {m : Option Byte} (h : (Instr.ud op m).wf = true) : Mapped (.ud op m) := by
  cases m with
  | none => exact ⟨op, [], rfl, opForm_of_undefinedOpcode h ▸ .undefined⟩
  | some m =>
    obtain ⟨k, form, rejects⟩ := opForm_of_undefinedModRM h
    exact ⟨op, [m], rfl, form ▸ .badModRM rejects⟩

/-! ### All rows -/

/-- Every well-formed instruction stands in the opcode map. -/
theorem mapped_of_wf {i : Instr} (h : i.wf = true) : Mapped i := by
  cases i with
  | addEbGb | addGbEb | orEbGb | orGbEb | adcEbGb | adcGbEb | sbbEbGb | sbbGbEb | andEbGb | andGbEb | subEbGb | subGbEb |
    xorEbGb | xorGbEb | cmpEbGb | cmpGbEb | testEbGb | xchgEbGb | movEbGb | movGbEb =>
    exact formRM8_mapped h (fun _ _ => rfl) rfl
  | addEvGv | addGvEv | orEvGv | orGvEv | adcEvGv | adcGvEv | sbbEvGv | sbbGvEv | andEvGv | andGvEv | subEvGv | subGvEv |
    xorEvGv | xorGvEv | cmpEvGv | cmpGvEv | testEvGv | xchgEvGv | movEvGv | movGvEv =>
    exact formRM16_mapped h (fun _ _ => rfl) rfl
  | rolEb1 | rorEb1 | rclEb1 | rcrEb1 | shlEb1 | shrEb1 | sarEb1 | rolEbCl | rorEbCl | rclEbCl | rcrEbCl | shlEbCl |
    shrEbCl | sarEbCl | notEb | negEb | mulEb | imulEb | divEb | idivEb | incEb | decEb =>
    exact done8_mapped h (fun _ => rfl) rfl fun _ => rfl
  | movSwEwEs | popEv | rolEv1 | rorEv1 | rclEv1 | rcrEv1 | shlEv1 | shrEv1 | sarEv1 | rolEvCl | rorEvCl | rclEvCl |
    rcrEvCl | shlEvCl | shrEvCl | sarEvCl | notEv | negEv | mulEv | imulEv | divEv | idivEv | incEv | decEv | callEv |
    jmpEv | pushEv =>
    exact done16_mapped h (fun _ => rfl) rfl fun _ => rfl
  | esc0Ev | esc1Ev | esc2Ev | esc3Ev | esc4Ev | esc5Ev | esc6Ev | esc7Ev => exact formEsc_mapped h (fun _ _ => rfl) rfl
  | addEbIb | orEbIb | adcEbIb | sbbEbIb | andEbIb | subEbIb | xorEbIb | cmpEbIb | addEbIb82 | orEbIb82 | adcEbIb82 |
    sbbEbIb82 | andEbIb82 | subEbIb82 | xorEbIb82 | cmpEbIb82 | movEbIb | testEbIb =>
    exact imm8_rm8_mapped h (fun _ _ => rfl) rfl fun _ => rfl
  | addEvIb | orEvIb | adcEvIb | sbbEvIb | andEvIb | subEvIb | xorEvIb | cmpEvIb =>
    exact imm8_rm16_mapped h (fun _ _ => rfl) rfl fun _ => rfl
  | addEvIv | orEvIv | adcEvIv | sbbEvIv | andEvIv | subEvIv | xorEvIv | cmpEvIv | movEvIv | testEvIv =>
    exact imm16_rm16_mapped h (fun _ _ => rfl) rfl fun _ => rfl
  | leaGvM | lesGvMp | ldsGvMp => exact formMem_mapped h (fun _ _ => rfl) rfl
  | callMp | jmpMp => exact mem_mapped h (fun _ => rfl) rfl fun _ => rfl
  | addAlIb | orAlIb | adcAlIb | sbbAlIb | andAlIb | subAlIb | xorAlIb | cmpAlIb | joJb | jnoJb | jbJb | jnbJb | jzJb |
    jnzJb | jbeJb | jaJb | jsJb | jnsJb | jpJb | jnpJb | jlJb | jgeJb | jleJb | jgJb | testAlIb | movAlIb | movClIb |
    movDlIb | movBlIb | movAhIb | movChIb | movDhIb | movBhIb | intIb | aamIb | aadIb | loopnzJb | loopzJb | loopJb |
    jcxzJb | inAlIb | inAxIb | outIbAl | outIbAx | jmpJb =>
    exact ⟨_, _, rfl, .imm8 _ _⟩
  | addAxIv | orAxIv | adcAxIv | sbbAxIv | andAxIv | subAxIv | xorAxIv | cmpAxIv | movAlOb | movAxOv | movObAl | movOvAx |
    testAxIv | movAxIv | movCxIv | movDxIv | movBxIv | movSpIv | movBpIv | movSiIv | movDiIv | retIw | retfIw | callJv |
    jmpJv =>
    exact ⟨_, _, rfl, .imm16 _ _⟩
  | callAp | jmpAp => exact ⟨_, _, rfl, .ptr _ _ _⟩
  | movEwSw _ sr => exact movEwSw_mapped h sr
  | movSwEwSsDs => exact movSwEwSsDs_mapped h
  | callbackIw rm id => exact callbackIw_mapped rm id
  | ud => exact ud_mapped h
  | _ => exact ⟨_, _, rfl, .plain _⟩

/-- Settles O2: the instruction stands in the opcode map (`mapped_of_wf`), and the decoder reads what the map gives. -/
theorem decodeInvertsEncode : Obligations.DecodeInvertsEncode := by
  unfold Obligations.DecodeInvertsEncode
  intro i rest h
  obtain ⟨op, p, enc, gives⟩ := mapped_of_wf h
  exact decode_eq_ok.mpr ⟨op, p, gives, congrArg (· ++ rest) enc.symm⟩

/-! ### The undefined encodings (R218) -/

theorem undefinedOpcode_iff (op : Nat) : undefinedOpcode op = true ↔
    op = 0x0F ∨ (0x60 ≤ op ∧ op ≤ 0x6F) ∨ op ∈ [0xC0, 0xC1, 0xC8, 0xC9, 0xD6, 0xF1] := by
  simp [undefinedOpcode, or_assoc]

theorem undefinedModRM_iff (op md reg : Nat) : undefinedModRM op md reg = true ↔
    (op ∈ [0xD0, 0xD1, 0xD2, 0xD3] ∧ reg = 6) ∨
    (op ∈ [0xF6, 0xF7] ∧ reg = 1) ∨
    (op = 0xFE ∧ (2 ≤ reg ∧ reg ≤ 6 ∨ reg = 7 ∧ md ≠ 3)) ∨
    (op = 0xFF ∧ (reg = 7 ∨ (reg = 3 ∨ reg = 5) ∧ md = 3)) ∨
    (op = 0x8C ∧ 4 ≤ reg) ∨
    (op = 0x8E ∧ (4 ≤ reg ∨ reg = 1)) ∨
    (op ∈ [0x8F, 0xC6, 0xC7] ∧ reg ≠ 0) ∨
    (op ∈ [0x8D, 0xC4, 0xC5] ∧ md = 3) := by
  have shifts : op ∈ [0xD0, 0xD1, 0xD2, 0xD3] ↔ 0xD0 ≤ op ∧ op ≤ 0xD3 := by simp; omega
  simp [undefinedModRM, shifts, or_assoc]

/-- Two bytes begin with an undefined encoding where the list has the opcode, or the opcode with the ModRM byte. -/
theorem decode_ud_iff (op m : Byte) (rest : List Byte) : (∃ o r, decode (op :: m :: rest) = .ok (.ud op o, r)) ↔
    undefinedEncoding op none = true ∨ undefinedEncoding op (some m) = true := by
  constructor
  · rintro ⟨o, r, read⟩
    obtain ⟨wf, enc⟩ := encodeInvertsDecode _ _ _ read
    cases o with
    | none => exact .inl wf
    | some m' => cases enc; exact .inr wf
  · rintro (wf | wf)
    · exact ⟨none, _, decodeInvertsEncode (.ud op none) (m :: rest) wf⟩
    · exact ⟨some m, _, decodeInvertsEncode (.ud op (some m)) rest wf⟩

/-- Settles O5: an undefined encoding is what decodes to one, by O2 and O3, and the model's list is the statement's. -/
theorem undefinedExactly : Obligations.UndefinedExactly := by
  unfold Obligations.UndefinedExactly
  intro op m rest _
  exact (decode_ud_iff op m rest).trans (or_congr (undefinedOpcode_iff _) (undefinedModRM_iff _ _ _))

/-- Settles O1: the decoder evaluated on each word. -/
theorem decodesSpecWords : Obligations.DecodesSpecWords := by
  unfold Obligations.DecodesSpecWords
  exact ⟨rfl, rfl, rfl, rfl, rfl, rfl, rfl, rfl, rfl, rfl, rfl⟩

end Sys2Proof.Proofs
end

section
/-! SUPPORT. The effective address and the segment of a memory operand (R206, R208). -/

namespace Sys2Proof.Proofs

open Sys2Proof.Machine Sys2Proof.Spec

theorem sext16_toNat (v : Byte) : ((sext16 v).toNat : Int) = v.toInt % 65536 := by
  rw [sext16, BitVec.signExtend, BitVec.toNat_ofInt]
  exact Int.toNat_of_nonneg (Int.emod_nonneg _ (by decide))

/-- R206: a sign-extended displacement on a sum modulo 2^16. -/
theorem add_sext16_toNat {x : Word} {sum : Nat} (h : x.toNat = sum % 65536) (d : Byte) :
    ((x + sext16 d).toNat : Int) = ((sum : Int) + d.toInt) % 65536 := by
  have ext := sext16_toNat d
  rw [BitVec.toNat_add, h]
  omega

theorem add_toNat {x : Word} {sum : Nat} (h : x.toNat = sum % 65536) (d : Word) :
    (x + d).toNat = (sum + d.toNat) % 65536 := by
  rw [BitVec.toNat_add, h]
  omega

theorem toNat_eq_mod (x : Word) : x.toNat = x.toNat % 65536 := (Nat.mod_eq_of_lt x.isLt).symm

theorem usesBp_iff (b : Base) : Machine.Base.usesBp b = true ↔ b = .bpSi ∨ b = .bpDi ∨ b = .bp := by
  cases b <;> decide

/-- R208: SS where BP is a base register, else DS. -/
theorem sreg_default (s : State) (b : Base) :
    s.sreg (if Machine.Base.usesBp b then .ss else .ds) =
      if b = .bpSi ∨ b = .bpDi ∨ b = .bp then s.segs.ss else s.segs.ds := by
  simp only [usesBp_iff]
  split <;> rfl

/-- Settles O19: the registers' sum (`baseValue`), the displacements added to it (`add_sext16_toNat`, `add_toNat`), and the
default segment (`sreg_default`). -/
theorem effectiveAddress : Obligations.EffectiveAddress := by
  unfold Obligations.EffectiveAddress
  intro s b d8 d16 sum
  have base : (baseValue s b).toNat = sum % 65536 := by
    cases b with
    | bxSi | bxDi | bpSi | bpDi => exact BitVec.toNat_add ..
    | si | di | bp | bx => exact toNat_eq_mod _
  refine ⟨rfl, base, add_sext16_toNat base d8, add_toNat base d16, fun m none => ?_, fun m r some => ?_⟩
  · rw [memSeg, segOr, none]
    cases m with
    | direct => rfl
    | base b | disp8 b | disp16 b => exact sreg_default s b
  · rw [memSeg, segOr, some, Option.getD_some]

end Sys2Proof.Proofs
end

section
/-! SUPPORT. One step of the CPU (R200 to R202, R810): what is sampled at its top, what the prefixes record, and how it
ends. -/

namespace Sys2Proof.Proofs

open Sys2Proof.Machine Sys2Proof.Spec

variable {s t : State}

/-! ### Prefixes (R201, R202, R710, R711) -/

/-- R202: the decode-transient state with one of the prefixes recorded in it. -/
def afterPrefix (tr : Transient) (i : Instr) : Transient :=
  { tr with
    segOvr := (segOverride i).or tr.segOvr
    rep := (repeatPrefix i).or tr.rep
    lock := decide (i = .lock) || tr.lock
    prefixBytes := tr.prefixBytes ++ encode i }

theorem exec_prefix {i : Instr} (h : i.isPrefix = true) (s : State) :
    exec i s = .next { s with tr := afterPrefix s.tr i } := by
  cases i with
  | segEs | segCs | segSs | segDs | lock | repne | rep => rfl
  | _ => exact absurd h Bool.false_ne_true

theorem runPrefixes_eq {is : List Instr} (h : ∀ i ∈ is, i.isPrefix = true) (s : State) :
    runPrefixes is s = some { s with tr := is.foldl afterPrefix s.tr } := by
  induction is generalizing s with
  | nil => rfl
  | cons i is ih =>
    obtain ⟨hi, his⟩ := List.forall_mem_cons.mp h
    rw [runPrefixes, exec_prefix hi, List.foldl_cons]
    exact ih his _

/-- The last one wins: recorded values in order, each over what stood before. -/
theorem foldl_or_eq_getLast? {α β : Type} (f : α → Option β) (l : List α) (b : Option β) :
    l.foldl (fun b a => (f a).or b) b = (l.filterMap f).getLast?.or b := by
  induction l generalizing b with
  | nil => rfl
  | cons a l ih =>
    rw [List.foldl_cons, ih]
    cases h : f a with
    | none => rw [List.filterMap_cons_none h]; rfl
    | some x => rw [List.filterMap_cons_some h, List.getLast?_cons]; cases (l.filterMap f).getLast? <;> rfl

theorem foldl_afterPrefix_segOvr (is : List Instr) (tr : Transient) :
    (is.foldl afterPrefix tr).segOvr = (is.filterMap segOverride).getLast?.or tr.segOvr := by
  rw [← foldl_or_eq_getLast?]
  exact (List.foldl_hom Transient.segOvr fun _ _ => rfl).symm

theorem foldl_afterPrefix_rep (is : List Instr) (tr : Transient) :
    (is.foldl afterPrefix tr).rep = (is.filterMap repeatPrefix).getLast?.or tr.rep := by
  rw [← foldl_or_eq_getLast?]
  exact (List.foldl_hom Transient.rep fun _ _ => rfl).symm

theorem foldl_afterPrefix_lock (is : List Instr) (tr : Transient) :
    (is.foldl afterPrefix tr).lock = (tr.lock || decide (Instr.lock ∈ is)) := by
  induction is generalizing tr with
  | nil => exact (Bool.or_false _).symm
  | cons i is ih =>
    rw [List.foldl_cons, ih, afterPrefix]
    simp [List.mem_cons, eq_comm (a := Instr.lock), Bool.or_comm, Bool.or_assoc]

/-- Settles O52: prefixes record themselves (`exec_prefix`), in a run of them one after the other (`runPrefixes_eq`). -/
theorem prefixesRecord : Obligations.PrefixesRecord := by
  unfold Obligations.PrefixesRecord
  intro s
  refine ⟨rfl, rfl, rfl, rfl, rfl, rfl, rfl, fun is h => ⟨_, runPrefixes_eq h s, ?_, ?_, ?_, rfl⟩⟩
  · exact foldl_afterPrefix_segOvr is s.tr
  · exact foldl_afterPrefix_rep is s.tr
  · exact foldl_afterPrefix_lock is s.tr

/-! ### The loop over prefixes (R200 to R202) -/

theorem hostActs_tr (as : List HostAction) (s : State) : (hostActs as s).tr = s.tr :=
  hostActs_induct (P := fun t => t.tr = s.tr) (fun a t h => (hostAct_tr a t).trans h) as s rfl

/-- R712: a callback reaches no decode-transient state. -/
theorem callback_tr (id : Word) (s : State) : (callback id s).tr = s.tr := by
  unfold callback
  split
  · rfl
  · exact hostActs_tr _ _

/-- R71: no instruction forgets that TF was set at the start of the step. -/
theorem exec_tfAtStart {i : Instr} (hp : i.isPrefix = false) (h : exec i s = .next t) : t.tr.tfAtStart = s.tr.tfAtStart := by
  by_cases hi : isCallback i = false
  · rw [(exec_systemEffect hi h).tr hp]
  · cases i with
    | callbackIw _ id => cases h; rw [callback_tr]
    | _ => exact absurd rfl hi

/-- R71, R74, R200: the end of a step whose instruction left `t`; `traced` is TF at the start of the step. -/
def ended (singleStep traced : Bool) (t : State) : State :=
  { t with
    tr := .none
    trapPending :=
      if t.status = .running ∧ singleStep = true then traced && !t.tr.calledInt else t.trapPending }

/-- R200: an instruction that is none of the prefixes is executed past its bytes and ends the loop. -/
theorem runFrom_instr {i : Instr} {rest : List Byte} (read : decode (fetched s) = .ok (i, rest)) (hp : i.isPrefix = false)
    (n : Nat) : ∃ t, exec i (advance rest s) = .next t ∧
      runFrom (n + 1) s = .next (ended s.params.singleStep s.tr.tfAtStart t) := by
  obtain ⟨t, ht⟩ := Laws.exec_next i (advance rest s)
  have traced : t.tr.tfAtStart = s.tr.tfAtStart := (exec_tfAtStart hp ht).trans rfl
  have params : t.params = s.params := (exec_preserves ht).params.trans rfl
  refine ⟨t, ht, (Laws.runFrom_last read hp ht).trans ?_⟩
  rw [← traced, ← params]
  rfl

/-- R201: prefixes are one byte long. -/
theorem encode_prefix_length {i : Instr} (h : i.isPrefix = true) : (encode i).length = 1 := by
  cases i with
  | segEs | segCs | segSs | segDs | lock | repne | rep => rfl
  | _ => exact absurd h Bool.false_ne_true

theorem fetched_length (s : State) : (fetched s).length = 6 := Laws.codeBytes_length s 6 s.ip

theorem rest_length_of_prefix {i : Instr} {rest : List Byte} (read : decode (fetched s) = .ok (i, rest))
    (h : i.isPrefix = true) : rest.length = 5 := by
  obtain ⟨-, enc⟩ := encodeInvertsDecode _ _ _ read
  have len := congrArg List.length enc
  rw [List.length_append, encode_prefix_length h, fetched_length] at len
  omega

/-- Settles O7: prefixes have one byte and loop (`runFrom_prefix`), any other instruction ends the loop (`runFrom_instr`). -/
theorem prefixLoopsBack : Obligations.PrefixLoopsBack := by
  unfold Obligations.PrefixLoopsBack
  intro s i rest n read
  refine ⟨fun hp => ?_, fun hp => runFrom_instr read hp n⟩
  have len := rest_length_of_prefix read hp
  have past : advance rest s = { s with ip := s.ip + 1 } := by rw [advance, len]; rfl
  exact ⟨_, exec_prefix hp _, len, Laws.runFrom_prefix read hp (past ▸ exec_prefix hp _)⟩

/-! ### The top of a step (R200, R803) -/

theorem step_cpu (running : s.status = .running) (turn : s.sched = []) : Machine.step s = cpuStep s := by
  rw [step_running running, takeTurn, turn]

/-- R200, R803: with no NMI, INTR or trap to take, the CPU waits where it is halted, and else runs an instruction. -/
theorem cpuStep_idle (nmi : s.nmiPending = false ∨ s.intDelay = true)
    (intr : s.intrPending = false ∨ s.intDelay = true ∨ ie s.flags = false)
    (trap : s.params.singleStep = false ∨ s.trapPending = false ∨ s.intDelay = true) :
    cpuStep s = if s.halted then .next { s with intDelay := false }
      else runFrom Config.prefixLimit (beginInstr { s with intDelay := false }) := by
  have flag : s.flag .ie = ie s.flags := rfl
  have noNmi : (s.nmiPending && !s.intDelay) = false := by rcases nmi with h | h <;> simp [h]
  have noIntr : (s.intrPending && !s.intDelay && s.flag .ie) = false := by rcases intr with h | h | h <;> simp [flag, h]
  have noTrap : (s.params.singleStep && s.trapPending && !s.intDelay) = false := by
    rcases trap with h | h | h <;> simp [h]
  simp only [cpuStep, noNmi, noIntr, noTrap, Bool.false_eq_true, if_false]

/-- Settles O9: the tests of `cpuStep` in their order, and a halted CPU with nothing to take (`cpuStep_idle`). -/
theorem interruptSampling : Obligations.InterruptSampling := by
  unfold Obligations.InterruptSampling
  intro s running turn _
  rw [step_cpu running turn]
  have flag : s.flag .ie = ie s.flags := rfl
  refine ⟨fun nmi delay => ?_, fun nmi intr delay enabled => ?_, fun nmi intr single trap delay => ?_,
    fun halted idle => ?_⟩
  · simp [cpuStep, nmi, delay, deliver]
  · simp [cpuStep, nmi, delay, intr, flag, enabled, deliver]
  · have noIntr : (s.intrPending && ie s.flags) = false := by rcases intr with h | h <;> simp [h]
    simp [cpuStep, nmi, flag, noIntr, single, trap, delay, deliver]
  · obtain delay | ⟨nmi, intr, trap⟩ := idle
    · rw [cpuStep_idle (.inr delay) (.inr (.inl delay)) (.inr (.inr delay)), if_pos halted]
    · rw [cpuStep_idle (.inl nmi) (intr.imp id .inr) (trap.imp id .inl), if_pos halted]

/-- R200: a step that fetches enters the loop over prefixes. -/
theorem step_of_fetches (h : Fetches s) :
    Machine.step s = runFrom Config.prefixLimit (beginInstr { s with intDelay := false }) := by
  obtain ⟨running, turn, nmi, intr, trap, awake⟩ := h
  rw [step_cpu running turn, cpuStep_idle nmi intr trap, awake]
  exact if_neg Bool.false_ne_true

/-- Settles O6: the step enters the loop (`step_of_fetches`), whose first instruction ends it (`runFrom_instr`). -/
theorem stepRunsDecoded : Obligations.StepRunsDecoded := by
  unfold Obligations.StepRunsDecoded
  intro s h start
  have enters : Machine.step s = runFrom Config.prefixLimit start := step_of_fetches h
  refine ⟨enters, fun i rest read hp => ?_⟩
  rw [enters]
  have same : fetched start = fetched s := rfl
  exact runFrom_instr (same ▸ read) hp 65535

/-! ### A code segment of prefixes (R202) -/

def prefixCodes : List Byte := [0x26, 0x2E, 0x36, 0x3E, 0xF0, 0xF2, 0xF3]

theorem decode_prefixByte {b : Byte} (h : b ∈ prefixCodes) :
    ∃ i : Instr, i.isPrefix = true ∧ ∀ rest, decode (b :: rest) = .ok (i, rest) := by
  simp only [prefixCodes, List.mem_cons, List.not_mem_nil, or_false] at h
  obtain rfl | rfl | rfl | rfl | rfl | rfl | rfl := h
  · exact ⟨.segEs, rfl, fun _ => rfl⟩
  · exact ⟨.segCs, rfl, fun _ => rfl⟩
  · exact ⟨.segSs, rfl, fun _ => rfl⟩
  · exact ⟨.segDs, rfl, fun _ => rfl⟩
  · exact ⟨.lock, rfl, fun _ => rfl⟩
  · exact ⟨.repne, rfl, fun _ => rfl⟩
  · exact ⟨.rep, rfl, fun _ => rfl⟩

/-- R202: the code segment holds prefixes only. -/
def OnlyPrefixes (s : State) : Prop := ∀ off : Word, s.segRead8 s.segs.cs off ∈ prefixCodes

/-- R202: the loop over prefixes goes round, one byte at a time. -/
theorem runFrom_succ_onlyPrefixes (h : OnlyPrefixes s) (n : Nat) :
    ∃ tr, runFrom (n + 1) s = runFrom n { s with ip := s.ip + 1, tr := tr } := by
  obtain ⟨i, hp, read⟩ := decode_prefixByte (h s.ip)
  exact ⟨_, Laws.runFrom_prefix (read _) hp (exec_prefix hp _)⟩

/-- R202: after `n` prefixes, all that were allowed, only IP has moved. -/
theorem runFrom_onlyPrefixes (n : Nat) (h : OnlyPrefixes s) : runFrom n s =
    .next { s with ip := s.ip + BitVec.ofNat 16 n, tr := .none, status := .fault .prefixHang } := by
  induction n generalizing s with
  | zero => simp [runFrom, prefixHang, finish]
  | succ n ih =>
    obtain ⟨tr, loop⟩ := runFrom_succ_onlyPrefixes h n
    have back : s.ip + 1 + BitVec.ofNat 16 n = s.ip + BitVec.ofNat 16 (n + 1) := by
      rw [BitVec.add_assoc, BitVec.ofNat_add, BitVec.add_comm (BitVec.ofNat 16 n)]
      rfl
    rw [loop, ih (s := { s with ip := s.ip + 1, tr := tr }) h]
    dsimp only
    rw [back]

/-- Settles O8: 65536 prefixes lead back to the first (`runFrom_onlyPrefixes`). -/
theorem prefixHangs : Obligations.PrefixHangs := by
  unfold Obligations.PrefixHangs
  intro s fetches tr prefixes
  have round : s.ip + BitVec.ofNat 16 Config.prefixLimit = s.ip := BitVec.add_zero _
  have only : OnlyPrefixes (beginInstr { s with intDelay := false }) := prefixes
  rw [step_of_fetches fetches, runFrom_onlyPrefixes _ only]
  dsimp only [beginInstr]
  rw [round, ← tr]

end Sys2Proof.Proofs
end

section
/-! SUPPORT. Data transfer (R300 to R315, R320 to R326): moves, segment loads, the stack, exchanges, address loads, and FLAGS
in AH. -/

namespace Sys2Proof.Proofs

open Sys2Proof.Machine Sys2Proof.Spec

variable {s : State} {i : Instr}

/-! ### Operands read after they are written -/

theorem readOp8_writeOp8_rm8 (s t : State) (e : RM8) (v : Byte) : (t.writeOp8 v (rm8 s e)).readOp8 (rm8 s e) = v := by
  cases e with
  | reg r => exact (writeOp8_reg t r v).1
  | mem m => exact segRead8_segWrite8_self t _ _ v

theorem readOp16_writeOp16_rm16 (s t : State) (e : RM16) (v : Word) :
    (t.writeOp16 v (rm16 s e)).readOp16 (rm16 s e) = v := by
  cases e with
  | reg r => exact (writeOp16_reg t r v).1
  | mem m => exact segRead16_segWrite16_self t _ _ v

/-- A register write leaves every other operand. -/
theorem readOp8_writeOp8_reg_of_ne (s : State) {g : Reg8} (v : Byte) {d : Operand8} (h : d ≠ .reg g) :
    (s.writeOp8 v (.reg g)).readOp8 d = s.readOp8 d := by
  cases d with
  | reg r => exact (writeOp8_reg s g v).2.1 r fun same => h (congrArg _ same)
  | mem | imm => rfl

theorem readOp16_writeOp16_reg_of_ne (s : State) {g : Reg16} (v : Word) {d : Operand16} (h : d ≠ .reg g) :
    (s.writeOp16 v (.reg g)).readOp16 d = s.readOp16 d := by
  cases d with
  | reg r => exact (writeOp16_reg s g v).2 r fun same => h (congrArg _ same)
  | mem | imm => rfl

theorem writeOp16_sp_of_ne (s : State) (v : Word) {d : Operand16} (h : d ≠ .reg .sp) :
    (s.writeOp16 v d).regs.sp = s.regs.sp := by
  cases d with
  | reg r => exact (writeOp16_reg s r v).2 .sp fun same => h (congrArg _ same.symm)
  | mem | imm => rfl

/-! ### Moves (R301 to R306, R311) -/

/-- Settles O35: each form's meaning writes its source to its destination, form by form. -/
theorem movForms : Obligations.MovForms := by
  unfold Obligations.MovForms
  intro s i
  constructor
  · intro dst src form
    cases form <;> rfl
  · intro dst src form
    cases form <;> rfl

/-- Settles O36: loads and pops of a segment register are record updates of the state, with the delay flag set. -/
theorem segmentLoads : Obligations.SegmentLoads := by
  unfold Obligations.SegmentLoads
  intro s
  exact ⟨fun _ => rfl, fun _ => rfl, fun _ => rfl, rfl, rfl, rfl⟩

/-! ### The stack (R300, R307 to R312, R326) -/

/-- R309: of the `rm` operands SP alone is read after SP is decremented. -/
theorem pushRm_of_ne {e : RM16} (h : e ≠ .reg .sp) (s : State) : pushRm e s = s.push16 (s.readOp16 (rm16 s e)) := by
  cases e with
  | mem => rfl
  | reg r =>
    cases r with
    | sp => exact absurd rfl h
    | _ => rfl

theorem exec_of_pushes {v : Word} (h : Pushes s i v) : exec i s = .next (s.push16 v) := by
  cases h with
  | pushEv e h => exact congrArg _ (pushRm_of_ne h s)
  | _ => rfl

theorem push16_sp_toNat (s : State) (v : Word) : (s.push16 v).regs.sp.toNat = (s.regs.sp.toNat + 65534) % 65536 := by
  rw [State.push16_regs, BitVec.toNat_sub, Nat.add_comm]
  rfl

/-- Settles O37: every push is `push16` of its word (`exec_of_pushes`), which is then on top of the stack. -/
theorem pushForms : Obligations.PushForms := by
  unfold Obligations.PushForms
  intro s i v form
  have pushed := exec_of_pushes form
  exact ⟨pushed, _, pushed, push16_sp_toNat s v, top16_push16 s v⟩

/-- R310, R312: every pop writes the word off the stack to an `rm` operand decoded before SP changes. -/
theorem exec_of_pops {dst : Operand16} (h : Pops s i dst) :
    (∃ e, dst = rm16 s e) ∧ exec i s = .next (s.drop16.writeOp16 s.top16 dst) := by
  cases h with
  | popEv e => exact ⟨⟨e, rfl⟩, rfl⟩
  | _ => exact ⟨⟨.reg _, rfl⟩, rfl⟩

/-- Settles O38: the word on top written after SP is incremented (`exec_of_pops`), where an operand other than SP leaves
it. -/
theorem popForms : Obligations.PopForms := by
  unfold Obligations.PopForms
  intro s i dst form
  obtain ⟨⟨e, rfl⟩, popped⟩ := exec_of_pops form
  refine ⟨popped, _, popped, readOp16_writeOp16_rm16 s _ e _, fun other => ?_⟩
  rw [writeOp16_sp_of_ne _ _ other]
  exact BitVec.toNat_add s.regs.sp 2

/-! ### Exchanges (R313 to R315) -/

theorem xchg8_rm_read (s : State) (e : RM8) (g : Reg8) :
    (xchg8 (rm8 s e) (.reg g) s).readOp8 (rm8 s e) = s.reg8 g ∧
      (xchg8 (rm8 s e) (.reg g) s).reg8 g = s.readOp8 (rm8 s e) := by
  have second : (xchg8 (rm8 s e) (.reg g) s).reg8 g = s.readOp8 (rm8 s e) := (writeOp8_reg _ g _).1
  refine ⟨?_, second⟩
  by_cases same : rm8 s e = .reg g
  · rw [same] at second ⊢
    exact second
  · exact (readOp8_writeOp8_reg_of_ne _ _ same).trans (readOp8_writeOp8_rm8 s s e _)

theorem xchg16_rm_read (s : State) (e : RM16) (g : Reg16) :
    (xchg16 (rm16 s e) (.reg g) s).readOp16 (rm16 s e) = s.reg16 g ∧
      (xchg16 (rm16 s e) (.reg g) s).reg16 g = s.readOp16 (rm16 s e) := by
  have second : (xchg16 (rm16 s e) (.reg g) s).reg16 g = s.readOp16 (rm16 s e) := (writeOp16_reg _ g _).1
  refine ⟨?_, second⟩
  by_cases same : rm16 s e = .reg g
  · rw [same] at second ⊢
    exact second
  · exact (readOp16_writeOp16_reg_of_ne _ _ same).trans (readOp16_writeOp16_rm16 s s e _)

/-- R313, R314: every exchange is of an `rm` operand with a register. -/
theorem exec_of_xchg16 {a b : Operand16} (h : Xchg16 s i a b) :
    ∃ e g, a = rm16 s e ∧ b = .reg g ∧ exec i s = .next (xchg16 a b s) := by
  cases h with
  | xchgEvGv e g => exact ⟨e, g, rfl, rfl, rfl⟩
  | _ => exact ⟨.reg .ax, _, rfl, rfl, rfl⟩

/-- Settles O39: each exchange is `xchg8` or `xchg16` (`exec_of_xchg16`), which swaps what its operands read
(`xchg8_rm_read`, `xchg16_rm_read`). -/
theorem exchange : Obligations.Exchange := by
  unfold Obligations.Exchange
  intro s i
  refine ⟨fun e g => ⟨_, rfl, rfl, xchg8_rm_read s e g⟩, fun a b form => ?_, rfl⟩
  obtain ⟨e, g, rfl, rfl, swapped⟩ := exec_of_xchg16 form
  exact ⟨_, swapped, rfl, xchg16_rm_read s e g⟩

/-! ### XLAT, LEA, LDS and LES (R320 to R323) -/

theorem zext16_toNat (v : Byte) : (zext16 v).toNat = v.toNat := BitVec.toNat_setWidth_of_le (by decide)

/-- Settles O40: the table index of XLAT is a sum modulo 2^16 (`zext16_toNat`); LEA, LDS and LES by their meanings. -/
theorem addressLoads : Obligations.AddressLoads := by
  unfold Obligations.AddressLoads
  intro s
  refine ⟨⟨s.regs.bx + zext16 (s.reg8 .al), ?_, rfl⟩, fun _ _ => rfl, fun _ _ => ⟨rfl, rfl⟩⟩
  rw [BitVec.toNat_add, zext16_toNat]

/-! ### LAHF and SAHF (R324, R325) -/

/-- R325: the masks of SAHF take bits 0, 2, 4, 6 and 7 from AH. -/
theorem sahf_copied (fl : Word) (v : Byte) :
    ∀ k ∈ [0, 2, 4, 6, 7], ((fl &&& 0xFF2A) ||| (zext16 v &&& 0x00D5)).getLsbD k = v.getLsbD k := by
  have masks : ∀ k ∈ [0, 2, 4, 6, 7], k < 16 ∧ (0xFF2A : Word).getLsbD k = false ∧ (0x00D5 : Word).getLsbD k = true := by
    decide
  intro k hk
  obtain ⟨inWord, drop, take⟩ := masks k hk
  have low : (zext16 v).getLsbD k = v.getLsbD k := by simp [zext16, inWord]
  rw [BitVec.getLsbD_or, BitVec.getLsbD_and, BitVec.getLsbD_and, drop, take, low, Bool.and_false, Bool.false_or, Bool.and_true]

/-- Settles O41: LAHF stores the low byte of FLAGS (`loByte_toNat`); SAHF copies five bits (`sahf_copied`) and keeps the
others (`sahf_frame`). -/
theorem lahfAndSahf : Obligations.LahfAndSahf := by
  unfold Obligations.LahfAndSahf
  intro s
  exact ⟨⟨_, rfl, loByte_toNat s.flags⟩, _, rfl, sahf_copied s.flags _, (sahf_frame (s.reg8 .ah)).flags⟩

end Sys2Proof.Proofs
end

section
/-! SUPPORT. FLAGS after an addition, a subtraction or a logical operation (R18, R401, R402, R500) as the rules on numbers, and
what CF, OF and AF say of the exact result (R423). -/

namespace Sys2Proof.Proofs

open Sys2Proof.Machine Sys2Proof.Spec

variable {w : Nat}

/-! ### The flag rules -/

/-- R18: `parity8` looks at the bits of the low byte only. -/
theorem parity8_setWidth (r : BitVec w) :
    parity8 (r.setWidth 8) = decide ((List.range 8).countP (fun k => r.getLsbD k) % 2 = 0) := by
  have low : (List.range 8).countP (fun k => (r.setWidth 8).getLsbD k) = (List.range 8).countP (fun k => r.getLsbD k) :=
    List.countP_congr fun k hk => by simp [List.mem_range.mp hk]
  rw [parity8, ← List.countP_eq_length_filter, low]
  rfl

/-- R18: a FLAGS word whose bits 2, 6 and 7 are those `szp` gives. -/
theorem szp_rule {r : BitVec w} {fl fl' : Word} (h : ∀ k ∈ [2, 6, 7], fl'.getLsbD k = (szp r fl).getLsbD k) :
    Szp r fl' where
  zero := (h 6 (by decide)).trans ((getLsbD_szp r fl 6).trans (by simp [BitVec.toNat_eq, beq_eq_decide]))
  sign := (h 7 (by decide)).trans ((getLsbD_szp r fl 7).trans r.msb_eq_decide)
  parity := (h 2 (by decide)).trans ((getLsbD_szp r fl 2).trans (parity8_setWidth r))

theorem not_mem_statusBits {k : Nat} : k ∉ statusBits ↔ k ≠ 0 ∧ k ≠ 2 ∧ k ≠ 4 ∧ k ≠ 6 ∧ k ≠ 7 ∧ k ≠ 11 := by
  simp [statusBits]

/-- R401: what `addFlags` answers and leaves is the rule's. -/
theorem addFlags_rule (hw : 1 ≤ w) (d s : BitVec w) (c : Bool) (fl : Word) :
    AddRule d s c fl (addFlags d s c fl).1 (addFlags d s c fl).2 where
  result := addFlags_toNat hw d s c fl
  carry := by
    have : 0 < 2 ^ w := Nat.two_pow_pos w
    rw [cf, getLsbD_addFlags]
    exact decide_eq_decide.mpr (by omega)
  overflow := (getLsbD_addFlags d s c fl 11).trans (BitVec.msb_eq_getLsbD_last _)
  aux := getLsbD_addFlags d s c fl 4
  szp := szp_rule fun _ _ => rfl
  others k hk := by simp [getLsbD_addFlags, not_mem_statusBits.mp hk]

/-- R402: what `subFlags` answers and leaves is the rule's. -/
theorem subFlags_rule (hw : 1 ≤ w) (d s : BitVec w) (b : Bool) (fl : Word) :
    SubRule d s b fl (subFlags d s b fl).1 (subFlags d s b fl).2 where
  result := subFlags_toNat hw d s b fl
  borrow := getLsbD_subFlags d s b fl 0
  overflow := (getLsbD_subFlags d s b fl 11).trans (BitVec.msb_eq_getLsbD_last _)
  aux := getLsbD_subFlags d s b fl 4
  szp := szp_rule fun _ _ => rfl
  others k hk := by simp [getLsbD_subFlags, not_mem_statusBits.mp hk]

/-- R500: what `logicFlags` leaves is the rule's. -/
theorem logicFlags_rule (r : BitVec w) (fl : Word) : LogicRule r fl (logicFlags r fl) where
  carry := getLsbD_logicFlags r fl 0
  overflow := getLsbD_logicFlags r fl 11
  aux := getLsbD_logicFlags r fl 4
  szp := szp_rule fun _ _ => rfl
  others := Frame.logicFlags_bits r fl

/-! ### What CF, OF and AF say of a sum (R423) -/

/-- The sum is exact, or 2^w too small. -/
theorem sum_toNat (hw : 1 ≤ w) (d s : BitVec w) (c : Bool) :
    (d + s + bit w c).toNat =
      if 2 ^ w ≤ d.toNat + s.toNat + c.toNat then d.toNat + s.toNat + c.toNat - 2 ^ w else d.toNat + s.toNat + c.toNat := by
  have hd := d.isLt
  have hs := s.isLt
  have hc := c.toNat_le
  rw [BitVec.toNat_add, BitVec.toNat_add, bit_toNat hw, Nat.mod_add_mod]
  split
  · next big => rw [Nat.mod_eq_sub_mod big, Nat.mod_eq_of_lt (by omega)]
  · next small => exact Nat.mod_eq_of_lt (by omega)

theorem add_carry_iff (hw : 1 ≤ w) (d s : BitVec w) (c : Bool) :
    2 ^ w ≤ d.toNat + s.toNat + c.toNat ↔ ((d + s + bit w c).toNat : Int) ≠ d.toNat + s.toNat + c.toNat := by
  have : 0 < 2 ^ w := Nat.two_pow_pos w
  rw [sum_toNat hw]
  split <;> omega

/-- R12: the signed value of a bit vector. -/
theorem toInt_cases (x : BitVec w) :
    2 * x.toNat < 2 ^ w ∧ x.toInt = x.toNat ∨ 2 ^ w ≤ 2 * x.toNat ∧ x.toInt = x.toNat - (2 ^ w : Nat) := by
  rw [BitVec.toInt_eq_toNat_cond]
  split
  · next low => exact .inl ⟨low, rfl⟩
  · next high => exact .inr ⟨Nat.le_of_not_lt high, rfl⟩

/-- The signed sum is exact, or 2^w too small or too large. -/
theorem sum_toInt (hw : 1 ≤ w) (d s : BitVec w) (c : Bool) :
    (d + s + bit w c).toInt = d.toInt + s.toInt + c.toNat ∨
      (d + s + bit w c).toInt = d.toInt + s.toInt + c.toNat - (2 ^ w : Nat) ∨
      (d + s + bit w c).toInt = d.toInt + s.toInt + c.toNat + (2 ^ w : Nat) := by
  have hd := toInt_cases d
  have hs := toInt_cases s
  have hr := toInt_cases (d + s + bit w c)
  have hc := c.toNat_le
  have sum := sum_toNat hw d s c
  generalize d + s + bit w c = r at *
  generalize 2 ^ w = M at *
  split at sum <;> omega

/-- The overflow bit of R401 and R402: the sign of `x` is neither that of `y` nor that of `z`. -/
theorem overflowBit_iff (x y z : BitVec w) :
    ((x ^^^ y) &&& (x ^^^ z)).msb = true ↔ (x.toInt < 0 ↔ 0 ≤ y.toInt) ∧ (x.toInt < 0 ↔ 0 ≤ z.toInt) := by
  rw [BitVec.msb_and, BitVec.msb_xor, BitVec.msb_xor, BitVec.msb_eq_toInt, BitVec.msb_eq_toInt, BitVec.msb_eq_toInt]
  by_cases hx : x.toInt < 0 <;> simp [hx]

/-- 2^w is even, and a signed value lies between minus its half and its half. -/
theorem toInt_bounds (hw : 1 ≤ w) (x : BitVec w) : ((2 ^ w : Nat) : Int) = 2 * (2 ^ (w - 1) : Nat) ∧
    -((2 ^ (w - 1) : Nat) : Int) ≤ x.toInt ∧ x.toInt < (2 ^ (w - 1) : Nat) := by
  have even : 2 ^ w = 2 * 2 ^ (w - 1) := by rw [← pow_succ', Nat.sub_add_cancel hw]
  exact ⟨by exact_mod_cast even, by exact_mod_cast BitVec.le_toInt x, by exact_mod_cast BitVec.toInt_lt⟩

theorem add_overflow_iff (hw : 1 ≤ w) (d s : BitVec w) (c : Bool) :
    (((d + s + bit w c) ^^^ s) &&& ((d + s + bit w c) ^^^ d)).msb = true ↔
      (d + s + bit w c).toInt ≠ d.toInt + s.toInt + c.toNat := by
  obtain ⟨even, lowD, highD⟩ := toInt_bounds hw d
  obtain ⟨-, lowS, highS⟩ := toInt_bounds hw s
  obtain ⟨-, lowR, highR⟩ := toInt_bounds hw (d + s + bit w c)
  have hc := c.toNat_le
  have sum := sum_toInt hw d s c
  rw [overflowBit_iff]
  generalize 2 ^ w = M at *
  generalize 2 ^ (w - 1) = half at *
  omega

theorem add_aux_iff (hw : 5 ≤ w) (d s : BitVec w) (c : Bool) :
    ((d + s + bit w c) ^^^ s ^^^ d).getLsbD 4 = true ↔ 16 ≤ d.toNat % 16 + s.toNat % 16 + c.toNat := by
  have sum : (d + s + bit w c).getLsbD 4 = (d.getLsbD 4 ^^ (s.getLsbD 4 ^^ BitVec.carry 4 d s c)) :=
    BitVec.getLsbD_add_add_bool hw d s c
  have carried : BitVec.carry 4 d s c = decide (16 ≤ d.toNat % 16 + s.toNat % 16 + c.toNat) := rfl
  rw [BitVec.getLsbD_xor, BitVec.getLsbD_xor, sum, carried]
  cases d.getLsbD 4 <;> cases s.getLsbD 4 <;> simp

/-- A subtraction read backwards: its result, the subtrahend and the borrow add up to the minuend. -/
theorem sub_add_cancel_borrow (d s : BitVec w) (b : Bool) : (d - s - bit w b) + s + bit w b = d := by
  rw [BitVec.add_assoc, BitVec.add_comm s, ← BitVec.add_assoc, BitVec.sub_add_cancel, BitVec.sub_add_cancel]

theorem sub_carry_iff (hw : 1 ≤ w) (d s : BitVec w) (b : Bool) :
    d.toNat < s.toNat + b.toNat ↔ ((d - s - bit w b).toNat : Int) ≠ d.toNat - s.toNat - b.toNat := by
  have sum := sum_toNat hw (d - s - bit w b) s b
  rw [sub_add_cancel_borrow] at sum
  have small := (d - s - bit w b).isLt
  generalize d - s - bit w b = r at *
  generalize 2 ^ w = M at *
  split at sum <;> omega

theorem sub_overflow_iff (hw : 1 ≤ w) (d s : BitVec w) (b : Bool) :
    ((s ^^^ d) &&& ((d - s - bit w b) ^^^ d)).msb = true ↔ (d - s - bit w b).toInt ≠ d.toInt - s.toInt - b.toNat := by
  have sum := add_overflow_iff hw (d - s - bit w b) s b
  rw [sub_add_cancel_borrow] at sum
  rw [BitVec.xor_comm s, BitVec.xor_comm _ d, sum]
  omega

theorem sub_aux_iff (hw : 5 ≤ w) (d s : BitVec w) (b : Bool) :
    ((d - s - bit w b) ^^^ s ^^^ d).getLsbD 4 = true ↔ d.toNat % 16 < s.toNat % 16 + b.toNat := by
  have sum := add_aux_iff hw (d - s - bit w b) s b
  have total : d.toNat % 16 = ((d - s - bit w b).toNat + s.toNat + b.toNat) % 16 := by
    have sixteen : 16 ∣ 2 ^ w := pow_dvd_pow 2 (show 4 ≤ w by omega)
    conv_lhs => rw [← sub_add_cancel_borrow d s b]
    rw [BitVec.toNat_add, BitVec.toNat_add, bit_toNat (by omega), Nat.mod_add_mod, Nat.mod_mod_of_dvd _ sixteen]
  rw [sub_add_cancel_borrow] at sum
  rw [BitVec.xor_comm _ d, BitVec.xor_comm _ s, ← BitVec.xor_assoc, sum]
  have := b.toNat_le
  omega

theorem ovf_subFlags_iff (hw : 1 ≤ w) (d s : BitVec w) (b : Bool) (fl : Word) :
    ovf (subFlags d s b fl).2 = true ↔ (subFlags d s b fl).1.toInt ≠ d.toInt - s.toInt - b.toNat := by
  rw [ovf, getLsbD_subFlags]
  exact sub_overflow_iff hw d s b

/-- Settles O28: a sum (`add_carry_iff`, `add_overflow_iff`, `add_aux_iff`), and a subtraction as the sum it undoes
(`sub_add_cancel_borrow`). -/
theorem carryAndOverflowMeaning : Obligations.CarryAndOverflowMeaning := by
  unfold Obligations.CarryAndOverflowMeaning
  intro w d s c fl hw
  have pos : 1 ≤ w := by omega
  refine ⟨?_, ?_, ?_, ?_, ovf_subFlags_iff pos d s c fl, ?_⟩
  all_goals simp only [cf, ovf, af, getLsbD_addFlags, getLsbD_subFlags]
  · exact decide_eq_true_iff.trans (add_carry_iff pos d s c)
  · exact add_overflow_iff pos d s c
  · exact add_aux_iff hw d s c
  · exact decide_eq_true_iff.trans (sub_carry_iff pos d s c)
  · exact sub_aux_iff hw d s c

/-! ### The order that a comparison's flags tell (R407, R614) -/

theorem zf_subFlags_iff (d s : BitVec w) (fl : Word) : zf (subFlags d s false fl).2 = true ↔ d = s := by
  have result : (subFlags d s false fl).1 = d - s := by simp [subFlags_result, bit]
  rw [zf, getLsbD_subFlags, result]
  exact beq_iff_eq.trans sub_eq_zero

theorem cf_subFlags_iff (d s : BitVec w) (fl : Word) : cf (subFlags d s false fl).2 = true ↔ d.toNat < s.toNat := by
  rw [cf, getLsbD_subFlags]
  exact decide_eq_true_iff

theorem sf_subFlags_iff (d s : BitVec w) (b : Bool) (fl : Word) :
    sf (subFlags d s b fl).2 = true ↔ (subFlags d s b fl).1.toInt < 0 := by
  have sign : sf (subFlags d s b fl).2 = (subFlags d s b fl).1.msb := getLsbD_subFlags d s b fl 7
  rw [sign, BitVec.msb_eq_toInt, decide_eq_true_iff]

/-- The sign of the result is that of the exact difference, unless that overflows. -/
theorem sf_ne_ovf_subFlags_iff (hw : 1 ≤ w) (d s : BitVec w) (fl : Word) :
    sf (subFlags d s false fl).2 ≠ ovf (subFlags d s false fl).2 ↔ d.toInt < s.toInt := by
  obtain ⟨even, lowD, highD⟩ := toInt_bounds hw d
  obtain ⟨-, lowS, highS⟩ := toInt_bounds hw s
  obtain ⟨-, lowR, highR⟩ := toInt_bounds hw (d - s - bit w false)
  have sum := sum_toInt hw (d - s - bit w false) s false
  rw [sub_add_cancel_borrow] at sum
  rw [Ne, Bool.eq_iff_iff, sf_subFlags_iff, ovf_subFlags_iff hw, subFlags_result]
  generalize 2 ^ w = M at *
  generalize 2 ^ (w - 1) = half at *
  generalize d - s - bit w false = r at *
  simp only [Bool.toNat_false, Nat.cast_zero] at *
  omega

end Sys2Proof.Proofs
end

section
/-! SUPPORT. The binary operations, INC, DEC, NEG and NOT in every form (R400 to R410, R500 to R505), and the conditional jumps
after a CMP (R407, R614). -/

namespace Sys2Proof.Proofs

open Sys2Proof.Machine Sys2Proof.Spec

variable {s : State} {i : Instr} {op : AluOp}

/-! ### The binary operations (R400 to R407, R501 to R504) -/

/-- R400: every 8-bit form is the shared operation on its operands. -/
theorem exec_of_binary8 {dst src : Operand8} (h : Binary8 s op i dst src) : exec i s = .next (alu8 op dst src s) := by
  cases h <;> rfl

theorem exec_of_binary16 {dst src : Operand16} (h : Binary16 s op i dst src) : exec i s = .next (alu16 op dst src s) := by
  cases h <;> rfl

/-- R400: CMP alone does not write its destination. -/
theorem alu8_eq (op : AluOp) (dst src : Operand8) (s : State) :
    let x := op.compute (s.readOp8 dst) (s.readOp8 src) s.flags
    alu8 op dst src s = if op = .cmp then { s with flags := x.2 } else { s with flags := x.2 }.writeOp8 x.1 dst := by
  cases op <;> rfl

theorem alu16_eq (op : AluOp) (dst src : Operand16) (s : State) :
    let x := op.compute (s.readOp16 dst) (s.readOp16 src) s.flags
    alu16 op dst src s = if op = .cmp then { s with flags := x.2 } else { s with flags := x.2 }.writeOp16 x.1 dst := by
  cases op <;> rfl

/-- R403, R404: ADD adds no carry, ADC that of FLAGS. -/
theorem compute_addRule {w : Nat} (hw : 1 ≤ w) (h : op = .add ∨ op = .adc) (d v : BitVec w) (fl : Word) :
    AddRule d v (decide (op = .adc) && cf fl) fl (op.compute d v fl).1 (op.compute d v fl).2 := by
  rcases h with rfl | rfl
  · exact addFlags_rule hw d v false fl
  · exact addFlags_rule hw d v (cf fl) fl

/-- R405 to R407: SUB and CMP subtract no borrow, SBB that of FLAGS. -/
theorem compute_subRule {w : Nat} (hw : 1 ≤ w) (h : op = .sub ∨ op = .sbb ∨ op = .cmp) (d v : BitVec w) (fl : Word) :
    SubRule d v (decide (op = .sbb) && cf fl) fl (op.compute d v fl).1 (op.compute d v fl).2 := by
  rcases h with rfl | rfl | rfl
  · exact subFlags_rule hw d v false fl
  · exact subFlags_rule hw d v (cf fl) fl
  · exact subFlags_rule hw d v false fl

/-- Settles O23: every form is the shared operation, which computes by R401 (`compute_addRule`) and writes its destination. -/
theorem addAndAdc : Obligations.AddAndAdc := by
  unfold Obligations.AddAndAdc
  intro s i op h
  have writes : op ≠ .cmp := by rcases h with rfl | rfl <;> decide
  refine ⟨fun dst src form => ⟨_, _, ?_, compute_addRule (by decide) h _ _ _⟩,
    fun dst src form => ⟨_, _, ?_, compute_addRule (by decide) h _ _ _⟩⟩
  · rw [exec_of_binary8 form, alu8_eq, if_neg writes]
  · rw [exec_of_binary16 form, alu16_eq, if_neg writes]

/-- Settles O24: every form is the shared operation, which computes by R402 (`compute_subRule`) and writes its destination but
for CMP. -/
theorem subSbbCmp : Obligations.SubSbbCmp := by
  unfold Obligations.SubSbbCmp
  intro s i op h
  refine ⟨fun dst src form => ⟨_, _, ?_, compute_subRule (by decide) h _ _ _⟩,
    fun dst src form => ⟨_, _, ?_, compute_subRule (by decide) h _ _ _⟩⟩
  · rw [exec_of_binary8 form, alu8_eq]
  · rw [exec_of_binary16 form, alu16_eq]

/-- R504: every form of TEST is the shared test of its operands. -/
theorem exec_of_test8 {dst src : Operand8} (h : Test8 s i dst src) : exec i s = .next (test8 dst src s) := by
  cases h <;> rfl

theorem exec_of_test16 {dst src : Operand16} (h : Test16 s i dst src) : exec i s = .next (test16 dst src s) := by
  cases h <;> rfl

/-- Settles O25: every form is the shared operation or test, whose FLAGS are those of R500 (`logicFlags_rule`). -/
theorem logicAndTest : Obligations.LogicAndTest := by
  unfold Obligations.LogicAndTest
  intro s i
  refine ⟨fun dst src => ⟨fun form => ?_, fun form => ?_, fun form => ?_, fun form => ?_⟩,
    fun dst src => ⟨fun form => ?_, fun form => ?_, fun form => ?_, fun form => ?_⟩⟩
  · exact ⟨_, exec_of_binary8 form, logicFlags_rule _ _⟩
  · exact ⟨_, exec_of_binary8 form, logicFlags_rule _ _⟩
  · exact ⟨_, exec_of_binary8 form, logicFlags_rule _ _⟩
  · exact ⟨_, exec_of_test8 form, logicFlags_rule _ _⟩
  · exact ⟨_, exec_of_binary16 form, logicFlags_rule _ _⟩
  · exact ⟨_, exec_of_binary16 form, logicFlags_rule _ _⟩
  · exact ⟨_, exec_of_binary16 form, logicFlags_rule _ _⟩
  · exact ⟨_, exec_of_test16 form, logicFlags_rule _ _⟩

/-! ### INC, DEC, NEG and NOT (R408 to R410, R505) -/

/-- R408, R409: every form of INC and DEC is the shared operation on its operand. -/
theorem exec_of_incDec8 {inc : Bool} {dst : Operand8} (h : IncDec8 s inc i dst) :
    exec i s = .next (unary8 (if inc then incFlags else decFlags) dst s) := by
  cases h <;> rfl

theorem exec_of_incDec16 {inc : Bool} {dst : Operand16} (h : IncDec16 s inc i dst) :
    exec i s = .next (unary16 (if inc then incFlags else decFlags) dst s) := by
  cases h <;> rfl

theorem cf_setFlag_cf (fl : Word) (b : Bool) : cf (Machine.setFlag fl .cf b) = b := getLsbD_setFlag_cf fl b 0

theorem setFlag_cf_keeps (fl : Word) (b : Bool) : Keeps [0] fl (Machine.setFlag fl .cf b) := fun k hk => by
  rw [getLsbD_setFlag_cf, if_neg fun h => hk (List.mem_singleton.mpr h)]

/-- Settles O26: an addition or subtraction of 1 (`addFlags_rule`, `subFlags_rule`) whose CF is then put back. -/
theorem incAndDec : Obligations.IncAndDec := by
  unfold Obligations.IncAndDec
  intro s i
  refine ⟨fun dst form => ?_, fun dst form => ?_, fun dst form => ?_, fun dst form => ?_⟩
  · exact ⟨_, _, _, exec_of_incDec8 form, addFlags_rule (by decide) _ _ _ _, cf_setFlag_cf _ _, setFlag_cf_keeps _ _⟩
  · exact ⟨_, _, _, exec_of_incDec8 form, subFlags_rule (by decide) _ _ _ _, cf_setFlag_cf _ _, setFlag_cf_keeps _ _⟩
  · exact ⟨_, _, _, exec_of_incDec16 form, addFlags_rule (by decide) _ _ _ _, cf_setFlag_cf _ _, setFlag_cf_keeps _ _⟩
  · exact ⟨_, _, _, exec_of_incDec16 form, subFlags_rule (by decide) _ _ _ _, cf_setFlag_cf _ _, setFlag_cf_keeps _ _⟩

/-- R410: nothing but 0 is negated without a borrow. -/
theorem cf_negFlags {w : Nat} (d : BitVec w) (fl : Word) : cf (negFlags d fl).2 = decide (d.toNat ≠ 0) := by
  rw [cf, negFlags, getLsbD_subFlags]
  simp [Nat.pos_iff_ne_zero]

/-- R410: the least signed value alone has no negative. -/
theorem ovf_negFlags {w : Nat} (hw : 1 ≤ w) (d : BitVec w) (fl : Word) :
    ovf (negFlags d fl).2 = decide (d.toNat = 2 ^ (w - 1)) := by
  obtain ⟨even, lowD, highD⟩ := toInt_bounds hw d
  obtain ⟨-, lowR, highR⟩ := toInt_bounds hw (0 - d - bit w false)
  have value := toInt_cases d
  have sum := sum_toInt hw (0 - d - bit w false) d false
  rw [sub_add_cancel_borrow] at sum
  rw [Bool.eq_iff_iff, decide_eq_true_iff, negFlags, ovf_subFlags_iff hw, subFlags_result]
  generalize 0 - d - bit w false = r at *
  generalize 2 ^ w = M at *
  generalize 2 ^ (w - 1) = half at *
  have zero : (0 : BitVec w).toInt = 0 := BitVec.toInt_zero
  simp only [zero, Bool.toNat_false, Nat.cast_zero] at *
  omega

/-- Settles O27: NEG is the subtraction from 0 (`subFlags_rule`, `cf_negFlags`, `ovf_negFlags`), NOT the complement. -/
theorem negAndNot : Obligations.NegAndNot := by
  unfold Obligations.NegAndNot
  intro s
  refine ⟨fun e => ⟨⟨_, _, rfl, subFlags_rule (by decide) _ _ _ _, cf_negFlags _ _, ovf_negFlags (by decide) _ _⟩,
      _, rfl, BitVec.toNat_not⟩,
    fun e => ⟨⟨_, _, rfl, subFlags_rule (by decide) _ _ _ _, cf_negFlags _ _, ovf_negFlags (by decide) _ _⟩,
      _, rfl, BitVec.toNat_not⟩⟩

/-! ### Conditional jumps after a CMP (R407, R614) -/

theorem jumpsIff_jumpIf {cc : Nat} {disp : Byte} {c : Prop} (exec_eq : exec i s = .next (jumpIf cc disp s))
    (h : condition cc s.flags = true ↔ c) : JumpsIff s i (relTarget s (sext16 disp)) c := by
  refine ⟨fun taken => ?_, fun notTaken => ?_⟩
  · rw [exec_eq, jumpIf, if_pos (h.mpr taken)]; rfl
  · rw [exec_eq, jumpIf, if_neg (mt h.mp notTaken)]

/-- R614: on the FLAGS a comparison leaves, the ten conditions are the orders of its operands. -/
theorem jumpsInOrder_of_subFlags {w : Nat} (hw : 1 ≤ w) {d v : BitVec w} {fl : Word}
    (flags : s.flags = (subFlags d v false fl).2) (disp : Byte) : JumpsInOrder s disp d v := by
  have less := cf_subFlags_iff d v fl
  have zero := zf_subFlags_iff d v fl
  have signed := sf_ne_ovf_subFlags_iff hw d v fl
  rw [← flags] at less zero signed
  have notSigned : sf s.flags = ovf s.flags ↔ v.toInt ≤ d.toInt := by rw [← not_lt, ← signed, not_not]
  refine ⟨_, add_sext16_toNat (toNat_eq_mod s.ip) disp, jumpsIff_jumpIf rfl less, jumpsIff_jumpIf rfl ?_,
    jumpsIff_jumpIf rfl ?_, jumpsIff_jumpIf rfl ?_, jumpsIff_jumpIf rfl zero, jumpsIff_jumpIf rfl ?_,
    jumpsIff_jumpIf rfl ?_, jumpsIff_jumpIf rfl ?_, jumpsIff_jumpIf rfl ?_, jumpsIff_jumpIf rfl ?_⟩
  · show (!cf s.flags) = true ↔ _
    rw [Bool.not_eq_true', ← Bool.not_eq_true, less, not_lt]
  · show (cf s.flags || zf s.flags) = true ↔ _
    rw [Bool.or_eq_true, less, zero, BitVec.toNat_eq, Nat.le_iff_lt_or_eq]
  · show (!cf s.flags && !zf s.flags) = true ↔ _
    rw [Bool.and_eq_true, Bool.not_eq_true', Bool.not_eq_true', ← Bool.not_eq_true, ← Bool.not_eq_true, less, zero,
      BitVec.toNat_eq]
    omega
  · show (!zf s.flags) = true ↔ _
    rw [Bool.not_eq_true', ← Bool.not_eq_true, zero]
  · show (sf s.flags != ovf s.flags) = true ↔ _
    rw [bne_iff_ne, signed]
  · show (sf s.flags == ovf s.flags) = true ↔ _
    rw [beq_iff_eq, notSigned]
  · show (zf s.flags || sf s.flags != ovf s.flags) = true ↔ _
    rw [Bool.or_eq_true, bne_iff_ne, signed, zero, ← BitVec.toInt_inj, Int.le_iff_eq_or_lt]
  · show (!zf s.flags && sf s.flags == ovf s.flags) = true ↔ _
    rw [Bool.and_eq_true, Bool.not_eq_true', ← Bool.not_eq_true, beq_iff_eq, notSigned, zero, ← BitVec.toInt_inj]
    omega

/-- Settles O48: CMP in every form leaves the FLAGS of R402 only, and those tell the order of its operands
(`jumpsInOrder_of_subFlags`). -/
theorem conditionsAfterCompare : Obligations.ConditionsAfterCompare := by
  unfold Obligations.ConditionsAfterCompare
  intro s i disp
  exact ⟨fun d v form => ⟨_, exec_of_binary8 form, rfl, jumpsInOrder_of_subFlags (by decide) rfl disp⟩,
    fun d v form => ⟨_, exec_of_binary16 form, rfl, jumpsInOrder_of_subFlags (by decide) rfl disp⟩⟩

end Sys2Proof.Proofs
end

section
/-! SUPPORT. MUL, IMUL, DIV and IDIV in numbers (R411 to R414), the divide errors (R413, R414, R419), the decimal instructions
(R415 to R420) and the sign extensions (R421, R422). -/

namespace Sys2Proof.Proofs

open Sys2Proof.Machine Sys2Proof.Spec

variable {w : Nat}

/-! ### Products (R411, R412) -/

theorem cf_mulFlags (b : Bool) (s : State) : cf (mulFlags b s).flags = b := getLsbD_mulFlags b s 0 (by decide)

theorem ovf_mulFlags (b : Bool) (s : State) : ovf (mulFlags b s).flags = b := getLsbD_mulFlags b s 11 (by decide)

theorem mul8_toNat (x y : Byte) : (BitVec.ofNat 16 (x.toNat * y.toNat)).toNat = x.toNat * y.toNat :=
  BitVec.toNat_ofNat .. |>.trans (Nat.mod_eq_of_lt BitVec.toNat_mul_toNat_lt)

/-- R411: the two words of a product make it up. -/
theorem mul16_toNat (x y : Word) :
    65536 * (BitVec.ofNat 16 (x.toNat * y.toNat / 65536)).toNat + (BitVec.ofNat 16 (x.toNat * y.toNat)).toNat =
      x.toNat * y.toNat := by
  have fits : x.toNat * y.toNat < 2 ^ 32 := BitVec.toNat_mul_toNat_lt
  rw [BitVec.toNat_ofNat, BitVec.toNat_ofNat]
  omega

theorem product_high_toNat (x y : Word) :
    (BitVec.ofNat 16 (x.toNat * y.toNat / 65536)).toNat = x.toNat * y.toNat / 65536 := by
  have fits : x.toNat * y.toNat < 2 ^ 32 := BitVec.toNat_mul_toNat_lt
  rw [BitVec.toNat_ofNat]
  omega

theorem imul8_toInt (x y : Byte) : (BitVec.ofInt 16 (x.toInt * y.toInt)).toInt = x.toInt * y.toInt := by
  have low : -2 ^ 14 ≤ x.toInt * y.toInt := BitVec.le_toInt_mul_toInt
  have high : x.toInt * y.toInt ≤ 2 ^ 14 := BitVec.toInt_mul_toInt_le
  exact BitVec.toInt_ofInt_eq_self (by decide) (by omega) (by omega)

/-- The low word of a 32-bit integer is its value modulo 2^16. -/
theorem append_ofInt (p : Int) : (BitVec.ofInt 32 p).extractLsb' 16 16 ++ BitVec.ofInt 16 p = BitVec.ofInt 32 p := by
  have low : BitVec.ofInt 16 p = (BitVec.ofInt 32 p).extractLsb' 0 16 := by
    apply BitVec.eq_of_toNat_eq
    rw [BitVec.extractLsb'_toNat, BitVec.toNat_ofInt, BitVec.toNat_ofInt]
    omega
  rw [low]
  exact (BitVec.extractLsb'_append_extractLsb'_eq_extractLsb' (by decide)).trans BitVec.extractLsb'_eq_self

theorem imul16_toInt (x y : Word) :
    ((BitVec.ofInt 32 (x.toInt * y.toInt)).extractLsb' 16 16 ++ BitVec.ofInt 16 (x.toInt * y.toInt)).toInt =
      x.toInt * y.toInt := by
  have low : -2 ^ 30 ≤ x.toInt * y.toInt := BitVec.le_toInt_mul_toInt
  have high : x.toInt * y.toInt ≤ 2 ^ 30 := BitVec.toInt_mul_toInt_le
  rw [append_ofInt]
  exact BitVec.toInt_ofInt_eq_self (by decide) (by omega) (by omega)

/-- R412: the test for a significant upper half. -/
theorem significant_eq {low high p q : Int} (h : p = q) :
    (!decide (low ≤ p ∧ p ≤ high)) = decide (q < low ∨ high < q) := by
  rw [← decide_not, h]
  exact decide_eq_decide.mpr (by omega)

/-- Settles O29: the product in numbers (`mul8_toNat` and its like), its significance in CF and OF (`cf_mulFlags`,
`ovf_mulFlags`). -/
theorem multiply : Obligations.Multiply := by
  unfold Obligations.Multiply
  intro s
  have same (b : Bool) (t : State) : ovf (mulFlags b t).flags = cf (mulFlags b t).flags := by
    rw [ovf_mulFlags, cf_mulFlags]
  refine ⟨fun e => ⟨_, _, _, rfl, mul8_toNat _ _, ?_, same _ _, (mul8_frame _).flags⟩,
    fun e => ⟨_, _, _, _, rfl, mul16_toNat _ _, ?_, same _ _, (mul16_frame _).flags⟩,
    fun e => ⟨_, _, _, rfl, imul8_toInt _ _, ?_, same _ _, (imul8_frame _).flags⟩,
    fun e => ⟨_, _, _, _, rfl, imul16_toInt _ _, ?_, same _ _, (imul16_frame _).flags⟩⟩
  · exact (cf_mulFlags _ _).trans (decide_eq_decide.mpr (by rw [mul8_toNat]; omega))
  · exact (cf_mulFlags _ _).trans (decide_eq_decide.mpr (by rw [product_high_toNat]))
  · exact (cf_mulFlags _ _).trans (significant_eq (imul8_toInt _ _).symm)
  · exact (cf_mulFlags _ _).trans (significant_eq (imul16_toInt _ _).symm)

/-! ### Quotients and remainders (R413, R414, R423) -/

/-- R413: a quotient that fits, with its remainder, is the number divided. -/
theorem unsigned_division (n : Nat) {v : BitVec w} (nonzero : v ≠ 0) (fits : n / v.toNat < 2 ^ w) :
    (BitVec.ofNat w (n / v.toNat)).toNat * v.toNat + (BitVec.ofNat w (n % v.toNat)).toNat = n ∧
      (BitVec.ofNat w (n % v.toNat)).toNat < v.toNat := by
  have pos : 0 < v.toNat := Nat.pos_of_ne_zero fun h => nonzero (BitVec.eq_of_toNat_eq (h.trans BitVec.toNat_zero.symm))
  have small : n % v.toNat < v.toNat := Nat.mod_lt _ pos
  rw [BitVec.toNat_ofNat, BitVec.toNat_ofNat, Nat.mod_eq_of_lt fits, Nat.mod_eq_of_lt (small.trans v.isLt), Nat.mul_comm]
  exact ⟨Nat.div_add_mod _ _, small⟩

/-- R423: a remainder other than 0 has the sign of the number divided. -/
theorem tmod_pos_iff {n v : Int} (h : n.tmod v ≠ 0) : 0 < n.tmod v ↔ 0 < n := by
  rcases Int.le_total 0 n with nonneg | nonpos
  · have := Int.tmod_nonneg v nonneg
    have : n ≠ 0 := fun zero => h (by rw [zero, Int.zero_tmod])
    omega
  · have := Int.tmod_nonneg v (Int.neg_nonneg.mpr nonpos)
    rw [Int.neg_tmod] at this
    omega

/-- R414, R423: the same of signed numbers, the quotient truncated toward 0. -/
theorem signed_division (hw : 1 ≤ w) (n : Int) {v : BitVec w} (nonzero : v ≠ 0) (low : -2 ^ (w - 1) ≤ n.tdiv v.toInt)
    (high : n.tdiv v.toInt < 2 ^ (w - 1)) :
    let q := BitVec.ofInt w (n.tdiv v.toInt)
    let r := BitVec.ofInt w (n.tmod v.toInt)
    q.toInt * v.toInt + r.toInt = n ∧ r.toInt.natAbs < v.toInt.natAbs ∧ (r.toInt ≠ 0 → (0 < r.toInt ↔ 0 < n)) := by
  have pos : 0 < v.toInt.natAbs := Int.natAbs_pos.mpr fun h => nonzero (BitVec.toInt_inj.mp (h.trans BitVec.toInt_zero.symm))
  have small : (n.tmod v.toInt).natAbs < v.toInt.natAbs := by
    rw [Int.natAbs_tmod]
    exact Nat.mod_lt _ pos
  obtain ⟨-, lowV, highV⟩ := toInt_bounds hw v
  have quotient := BitVec.toInt_ofInt_eq_self hw low high
  have remainder : (BitVec.ofInt w (n.tmod v.toInt)).toInt = n.tmod v.toInt := by
    apply BitVec.toInt_ofInt_eq_self hw
    · norm_cast; omega
    · norm_cast; omega
  dsimp only
  rw [quotient, remainder]
  exact ⟨(Int.mul_comm .. ▸ Int.mul_tdiv_add_tmod n v.toInt :), small, tmod_pos_iff⟩

/-! ### Division and its errors (R413, R414, R419) -/

variable {s : State}

theorem statusDraw_keeps (s : State) : Keeps statusBits s.flags (s.drawFlags statusFlags).flags :=
  (statusDraw_frame (b := []) (w := [])).flags

theorem idivLow_ge (s : State) (w : Nat) : -2 ^ (w - 1) ≤ idivLow s w := by
  unfold idivLow
  split <;> omega

/-- Settles O30: where no divide error is raised the division goes its other way, and quotient and remainder fit
(`unsigned_division`, `signed_division`). -/
theorem divide : Obligations.Divide := by
  unfold Obligations.Divide
  intro s
  refine ⟨fun e ok => ?_, fun e ok => ?_, fun e ok => ?_, fun e ok => ?_⟩
  · rw [← Bool.not_eq_true, divideErrors_divEb] at ok
    have ⟨nonzero, fits⟩ := not_or.mp ok
    obtain ⟨total, small⟩ := unsigned_division s.regs.ax.toNat nonzero (by omega)
    exact ⟨_, _, _, _, congrArg _ (if_neg ok), total, small, statusDraw_keeps s⟩
  · rw [← Bool.not_eq_true, divideErrors_divEv] at ok
    have ⟨nonzero, fits⟩ := not_or.mp ok
    obtain ⟨total, small⟩ := unsigned_division (s.regs.dx.toNat * 65536 + s.regs.ax.toNat) nonzero (by omega)
    exact ⟨_, _, _, _, congrArg _ (if_neg ok), by rw [Nat.mul_comm 65536]; exact total, small, statusDraw_keeps s⟩
  · rw [← Bool.not_eq_true, divideErrors_idivEb] at ok
    have ⟨nonzero, fits⟩ := not_or.mp ok
    have low := idivLow_ge s 8
    obtain ⟨total, small, sign⟩ := signed_division (by decide) s.regs.ax.toInt nonzero (by omega) (by omega)
    exact ⟨_, _, _, _, congrArg _ (if_neg ok), total, small, sign, statusDraw_keeps s⟩
  · rw [← Bool.not_eq_true, divideErrors_idivEv] at ok
    have ⟨nonzero, fits⟩ := not_or.mp ok
    have low := idivLow_ge s 16
    obtain ⟨total, small, sign⟩ :=
      signed_division (by decide) (s.regs.dx ++ s.regs.ax).toInt nonzero (by omega) (by omega)
    exact ⟨_, _, _, _, congrArg _ (if_neg ok), total, small, sign, statusDraw_keeps s⟩

/-- Settles O31: the five instructions that can raise it do so after the draw of the status flags. -/
protected theorem divideErrors : Obligations.DivideErrors := by
  unfold Obligations.DivideErrors
  intro s i raises
  cases i with
  | divEb e => exact ⟨_, _, congrArg _ (if_pos ((divideErrors_divEb e).mp raises)), statusDraw_keeps s⟩
  | divEv e => exact ⟨_, _, congrArg _ (if_pos ((divideErrors_divEv e).mp raises)), statusDraw_keeps s⟩
  | idivEb e => exact ⟨_, _, congrArg _ (if_pos ((divideErrors_idivEb e).mp raises)), statusDraw_keeps s⟩
  | idivEv e => exact ⟨_, _, congrArg _ (if_pos ((divideErrors_idivEv e).mp raises)), statusDraw_keeps s⟩
  | aamIb v => exact ⟨_, _, congrArg _ (if_pos ((divideErrors_aamIb v).mp raises)), statusDraw_keeps s⟩
  | _ => exact absurd raises Bool.false_ne_true

/-! ### Decimal instructions (R415 to R420) -/

theorem keeps_of_frame {t : State} {b : List Reg8} (h : Frame s t [] b [] [] statusBits) : Keeps statusBits s.flags t.flags :=
  h.flags

/-- An adjustment of a byte modulo 256. -/
theorem ite_add_toNat (adjusts : Bool) (v k : Byte) : (if adjusts then v + k else v).toNat =
    (if adjusts then v.toNat + k.toNat else v.toNat) % 256 := by
  cases adjusts
  · exact (Nat.mod_eq_of_lt v.isLt).symm
  · exact BitVec.toNat_add v k

theorem ite_sub_toNat (adjusts : Bool) (v k : Byte) : (if adjusts then v - k else v).toNat =
    (if adjusts then v.toNat + (256 - k.toNat) else v.toNat) % 256 := by
  cases adjusts
  · exact (Nat.mod_eq_of_lt v.isLt).symm
  · exact (BitVec.toNat_sub v k).trans (congrArg (· % 256) (Nat.add_comm ..))

theorem and_0F_toNat (v : Byte) {n : Nat} (h : v.toNat = n % 256) : (v &&& 0x0F).toNat = n % 16 := by
  have low : (v &&& 0x0F).toNat = v.toNat % 16 := (BitVec.toNat_and v _).trans (Nat.and_two_pow_sub_one_eq_mod _ 4)
  omega

/-- R415, R416: AF and CF tell whether an adjustment was made. -/
theorem asciiAdjust_flags (add : Bool) (s : State) :
    af (asciiAdjust add s).flags = asciiAdjusts s ∧ cf (asciiAdjust add s).flags = asciiAdjusts s ∧
      Keeps statusBits s.flags (asciiAdjust add s).flags := by
  refine ⟨?_, ?_, keeps_of_frame (.asciiAdjust add (List.Subset.refl _) (List.Subset.refl _))⟩
  · refine (getLsbD_foldl_setFlag [.ovf, .sf, .zf, .pf] _ _ 4 (by decide)).trans ?_
    exact (getLsbD_setFlag_cf _ _ 4).trans (getLsbD_setFlag_af _ _ 4)
  · refine (getLsbD_foldl_setFlag [.ovf, .sf, .zf, .pf] _ _ 0 (by decide)).trans ?_
    exact getLsbD_setFlag_cf _ _ 0

/-- R417 to R420: SF, ZF and PF of a value, where the flags drawn after them are others. -/
theorem szp_drawFlags (v : Byte) (s : State) {fs : List Flag} (h : ∀ f ∈ fs, f.bit ∉ [2, 6, 7]) :
    Szp v ({ s with flags := szp v s.flags }.drawFlags fs).flags :=
  szp_rule fun _ hk => getLsbD_foldl_setFlag fs _ _ _ fun f hf same => h f hf (same ▸ hk)

/-- R417, R418: AF and CF as set before, SZP of the result. -/
theorem decimalFlags_flags (v : Byte) (c a : Bool) (s : State) :
    let t := decimalFlags v ((s.setFlag .cf c).setFlag .af a)
    af t.flags = a ∧ cf t.flags = c ∧ Szp v t.flags := by
  have kept {k : Nat} (h : k ≠ 2 ∧ k ≠ 6 ∧ k ≠ 7 ∧ k ≠ 11) (t : State) :
      (decimalFlags v t).flags.getLsbD k = t.flags.getLsbD k := by
    rw [decimalFlags, State.drawFlags_flags, List.foldl_cons, List.foldl_nil, getLsbD_setFlag_ovf, getLsbD_szp]
    simp [h]
  refine ⟨(kept (by decide) _).trans (getLsbD_setFlag_af _ a 4), (kept (by decide) _).trans ?_,
    szp_drawFlags v _ (by decide)⟩
  exact (getLsbD_setFlag_af _ a 0).trans (getLsbD_setFlag_cf _ c 0)

theorem daa_toNat (low high : Bool) (v : Byte) :
    (if high then (if low then v + 6 else v) + 0x60 else (if low then v + 6 else v)).toNat =
      (v.toNat + (if low then 6 else 0) + (if high then 0x60 else 0)) % 256 := by
  rw [ite_add_toNat, ite_add_toNat]
  cases low <;> cases high <;> simp

theorem das_toNat (low high : Bool) (v : Byte) :
    ((if high then (if low then v - 6 else v) - 0x60 else (if low then v - 6 else v)).toNat : Int) =
      ((v.toNat : Int) - (if low then 6 else 0) - (if high then 0x60 else 0)) % 256 := by
  rw [ite_sub_toNat, ite_sub_toNat]
  cases low <;> cases high <;> simp <;> omega

/-- R419: AAM with a base other than 0. -/
theorem aam_of_ne {b : Byte} (nonzero : b ≠ 0) (s : State) :
    let l := BitVec.ofNat 8 ((s.reg8 .al).toNat % b.toNat)
    aam b s = { s with
      regs := (s.regs.set8 .al l).set8 .ah (BitVec.ofNat 8 ((s.reg8 .al).toNat / b.toNat))
      flags := ({ s with flags := szp l s.flags }.drawFlags [.ovf, .af, .cf]).flags
      draws := s.draws + 1 } := by
  dsimp only
  rw [Regs.set8_al_ah, ← Regs.set8_ah_al]
  exact if_neg nonzero

/-- R419, R420: SZP of the result, the three other flags drawn. -/
theorem szpDraws_flags (v : Byte) (s : State) :
    let t := { s with flags := szp v s.flags }.drawFlags [.ovf, .af, .cf]
    Szp v t.flags ∧ Keeps statusBits s.flags t.flags :=
  ⟨szp_drawFlags v s (by decide), keeps_of_frame (b := []) (szpDraws_frame v)⟩

/-- Settles O32: AL and AH in numbers (`ite_add_toNat`, `ite_sub_toNat`, `unsigned_division`), and the FLAGS of each pair
(`asciiAdjust_flags`, `decimalFlags_flags`, `szpDraws_flags`). -/
theorem decimalInstructions : Obligations.DecimalInstructions := by
  unfold Obligations.DecimalInstructions
  intro s
  refine ⟨?_, ?_, ?_, ?_, fun b nonzero => ?_, fun b => ?_⟩
  · exact ⟨_, _, _, _, rfl, and_0F_toNat _ (ite_add_toNat _ _ 6), ite_add_toNat _ _ 1, asciiAdjust_flags true s⟩
  · exact ⟨_, _, _, _, rfl, and_0F_toNat _ (ite_sub_toNat _ _ 6), ite_sub_toNat _ _ 1, asciiAdjust_flags false s⟩
  · obtain ⟨aux, carry, szp⟩ := decimalFlags_flags _ (highAdjusts s) (lowAdjusts s) (s.setReg8 .al _)
    exact ⟨_, _, _, rfl, daa_toNat _ _ _, aux, carry, szp, keeps_of_frame (.daa (List.Subset.refl _) (List.Subset.refl _))⟩
  · obtain ⟨aux, carry, szp⟩ := decimalFlags_flags _ _ (lowAdjusts s) (s.setReg8 .al _)
    exact ⟨_, _, _, rfl, das_toNat _ _ _, aux, carry, szp, keeps_of_frame (.das (List.Subset.refl _) (List.Subset.refl _))⟩
  · obtain ⟨total, small⟩ := unsigned_division (s.reg8 .al).toNat nonzero
      (Nat.lt_of_le_of_lt (Nat.div_le_self _ _) (s.reg8 .al).isLt)
    exact ⟨_, _, _, _, congrArg _ (aam_of_ne nonzero s), total, small, szpDraws_flags _ s⟩
  · refine ⟨_, _, _, rfl, ?_, szpDraws_flags _ s⟩
    rw [BitVec.toNat_add, BitVec.toNat_mul, Nat.add_mod_mod]

/-! ### Sign extensions (R421, R422) -/

/-- A word of the sign of `x` above `x`. -/
theorem append_sign_toInt (x : Word) : ((if x.msb then 0xFFFF else 0 : Word) ++ x).toInt = x.toInt := by
  rw [BitVec.toInt_append, BitVec.toInt_eq_msb_cond x]
  cases x.msb
  · simp
  · simp; omega

/-- Settles O33: CBW extends the sign bit of AL, CWD writes the sign of AX above it (`append_sign_toInt`). -/
theorem signExtensions : Obligations.SignExtensions := by
  unfold Obligations.SignExtensions
  intro s
  exact ⟨⟨_, rfl, BitVec.toInt_signExtend_of_le (by decide)⟩, _, rfl, append_sign_toInt _⟩

end Sys2Proof.Proofs
end

section
/-! SUPPORT. Shifts and rotates (R506 to R513): what a count of `k` one-bit steps leaves in the operand, in CF and in the other
flags. -/

namespace Sys2Proof.Proofs

open Sys2Proof.Machine Sys2Proof.Spec

variable {w : Nat}

/-! ### One step, bit by bit -/

theorem getLsbD_bit (hw : 1 ≤ w) (b : Bool) (j : Nat) : (bit w b).getLsbD j = (decide (j = 0) && b) := by
  rw [bit, BitVec.getLsbD_setWidth, BitVec.getLsbD_ofBool]
  by_cases h : j = 0
  · simp [h, show 0 < w by omega]
  · simp [h]

/-- A step to the left puts a bit in at the bottom. -/
theorem getLsbD_shiftLeft_or_bit (v : BitVec w) (b : Bool) {j : Nat} (h : j < w) :
    ((v <<< 1) ||| bit w b).getLsbD j = if j = 0 then b else v.getLsbD (j - 1) := by
  rw [BitVec.getLsbD_or, BitVec.getLsbD_shiftLeft, getLsbD_bit (by omega)]
  by_cases zero : j = 0
  · simp [zero]
  · simp [zero, h]

/-- A step to the right puts a bit in at the top. -/
theorem getLsbD_shiftRight_or_bit (v : BitVec w) (b : Bool) {j : Nat} (h : j < w) :
    ((v >>> 1) ||| (bit w b <<< (w - 1))).getLsbD j = if j = w - 1 then b else v.getLsbD (j + 1) := by
  rw [BitVec.getLsbD_or, BitVec.getLsbD_ushiftRight, BitVec.getLsbD_shiftLeft, getLsbD_bit (by omega), Nat.add_comm 1 j]
  by_cases top : j = w - 1
  · simp [top, show w - 1 < w by omega, show w - 1 + 1 = w by omega]
  · simp [top, show j < w - 1 by omega]

/-! ### Rotates (R507 to R510) -/

/-- In a ring of `n` bits, the place below `j`. -/
theorem add_pred_mod {j n : Nat} (h : j < n) : (j + (n - 1)) % n = if j = 0 then n - 1 else j - 1 := by
  split
  · rw [Nat.mod_eq_of_lt (by omega)]; omega
  · rw [show j + (n - 1) = j - 1 + n by omega, Nat.add_mod_right, Nat.mod_eq_of_lt (by omega)]

/-- In a ring of `n` bits, the place above `j`. -/
theorem add_one_mod {j n : Nat} (h : j < n) : (j + 1) % n = if j = n - 1 then 0 else j + 1 := by
  split
  · rw [show j + 1 = n by omega, Nat.mod_self]
  · rw [Nat.mod_eq_of_lt (by omega)]

/-- `k` turns by `n - 1` places are one turn back by `k % n`. -/
theorem add_mul_pred_mod (j k : Nat) {n : Nat} (h : 0 < n) : (j + k * (n - 1)) % n = (j + (n - k % n)) % n := by
  have back : n - k % n + k = (k / n + 1) * n := by
    have := Nat.mod_lt k h
    have := Nat.div_add_mod' k n
    rw [Nat.add_mul]
    omega
  have forth : k * (n - 1) + k = k * n := by rw [← Nat.mul_succ, Nat.succ_eq_add_one, Nat.sub_add_cancel h]
  refine Nat.ModEq.add_right_cancel' k ?_
  rw [Nat.add_assoc, Nat.add_assoc, back, forth, Nat.ModEq, Nat.add_mul_mod_self_right, Nat.add_mul_mod_self_right]

/-- Where one step turns a ring of `n` bits by `d` places, `k` steps turn it by `k * d`. -/
theorem iter_turns {α : Type} {f : α → α} {bits : α → Nat → Bool} {n d : Nat}
    (step : ∀ x j, j < n → bits (f x) j = bits x ((j + d) % n)) (k : Nat) (x : α) {j : Nat} (h : j < n) :
    bits (iter f k x) j = bits x ((j + k * d) % n) := by
  induction k generalizing x with
  | zero => rw [iter, Nat.zero_mul, Nat.add_zero, Nat.mod_eq_of_lt h]
  | succ k ih =>
    rw [iter, ih, step _ _ (Nat.mod_lt _ (by omega)), Nat.mod_add_mod, Nat.succ_mul, Nat.add_assoc]

/-- Steps that turn the ring up by one place. -/
theorem iter_turns_up {α : Type} {f : α → α} {bits : α → Nat → Bool} {n : Nat}
    (step : ∀ x j, j < n → bits (f x) j = bits x ((j + (n - 1)) % n)) (k : Nat) (x : α) {j : Nat} (h : j < n) :
    bits (iter f k x) j = bits x ((j + (n - k % n)) % n) := by
  rw [iter_turns step k x h, add_mul_pred_mod j k (by omega)]

/-- Steps that turn the ring down by one place. -/
theorem iter_turns_down {α : Type} {f : α → α} {bits : α → Nat → Bool} {n : Nat}
    (step : ∀ x j, j < n → bits (f x) j = bits x ((j + 1) % n)) (k : Nat) (x : α) {j : Nat} (h : j < n) :
    bits (iter f k x) j = bits x ((j + k) % n) := by
  rw [iter_turns step k x h, Nat.mul_one]

theorem getLsbD_step_rol (x : BitVec w × Bool) {j : Nat} (h : j < w) :
    (ShiftOp.rol.step x).1.getLsbD j = x.1.getLsbD ((j + (w - 1)) % w) := by
  rw [add_pred_mod h, ShiftOp.step, getLsbD_shiftLeft_or_bit _ _ h, BitVec.msb_eq_getLsbD_last, apply_ite x.1.getLsbD]

theorem getLsbD_step_ror (x : BitVec w × Bool) {j : Nat} (h : j < w) :
    (ShiftOp.ror.step x).1.getLsbD j = x.1.getLsbD ((j + 1) % w) := by
  rw [add_one_mod h, ShiftOp.step, getLsbD_shiftRight_or_bit _ _ h, apply_ite x.1.getLsbD]

/-- The carry is the top bit of the ring. -/
theorem throughCarry_step_rcl (hw : 1 ≤ w) (x : BitVec w × Bool) {j : Nat} (h : j < w + 1) :
    throughCarry (ShiftOp.rcl.step x).1 (ShiftOp.rcl.step x).2 j = throughCarry x.1 x.2 ((j + w) % (w + 1)) := by
  rw [show (j + w) % (w + 1) = if j = 0 then w else j - 1 from add_pred_mod h]
  by_cases top : j = w
  · simp [throughCarry, ShiftOp.step, top, BitVec.msb_eq_getLsbD_last, show w ≠ 0 by omega,
      show w - 1 ≠ w by omega]
  · simp only [throughCarry, ShiftOp.step, if_neg top, getLsbD_shiftLeft_or_bit x.1 x.2 (show j < w by omega)]
    by_cases zero : j = 0
    · simp [zero]
    · simp [zero, show j - 1 ≠ w by omega]

theorem throughCarry_step_rcr (hw : 1 ≤ w) (x : BitVec w × Bool) {j : Nat} (h : j < w + 1) :
    throughCarry (ShiftOp.rcr.step x).1 (ShiftOp.rcr.step x).2 j = throughCarry x.1 x.2 ((j + 1) % (w + 1)) := by
  rw [show (j + 1) % (w + 1) = if j = w then 0 else j + 1 from add_one_mod h]
  by_cases top : j = w
  · simp [throughCarry, ShiftOp.step, top, show 0 ≠ w by omega]
  · simp only [throughCarry, ShiftOp.step, if_neg top, getLsbD_shiftRight_or_bit x.1 x.2 (show j < w by omega)]
    exact if_congr (by omega) rfl rfl

/-- The bit that goes round is also the carry. -/
theorem rol_carry (x : BitVec w × Bool) (hw : 1 ≤ w) : (ShiftOp.rol.step x).2 = (ShiftOp.rol.step x).1.getLsbD 0 :=
  (getLsbD_shiftLeft_or_bit x.1 x.1.msb hw).symm

theorem ror_carry (x : BitVec w × Bool) (hw : 1 ≤ w) : (ShiftOp.ror.step x).2 = (ShiftOp.ror.step x).1.getLsbD (w - 1) :=
  ((getLsbD_shiftRight_or_bit x.1 (x.1.getLsbD 0) (Nat.sub_lt hw Nat.one_pos)).trans (if_pos rfl)).symm

/-! ### Shifts (R511 to R513) -/

/-- R511: `k` steps are one shift by `k`; so too for SHR and SAR. -/
theorem run_shl (k : Nat) (v : BitVec w) (c : Bool) : (ShiftOp.shl.run k v c).1 = v <<< k := by
  induction k with
  | zero => exact (BitVec.shiftLeft_zero v).symm
  | succ k ih => rw [ShiftOp.run_succ, BitVec.shiftLeft_add, ← ih]; rfl

theorem run_shr (k : Nat) (v : BitVec w) (c : Bool) : (ShiftOp.shr.run k v c).1 = v >>> k := by
  induction k with
  | zero => exact (BitVec.ushiftRight_zero v).symm
  | succ k ih => rw [ShiftOp.run_succ, BitVec.shiftRight_add, ← ih]; rfl

/-- R513: a step of SAR keeps the sign. -/
theorem step_sar (x : BitVec w × Bool) : (ShiftOp.sar.step x).1 = x.1.sshiftRight 1 := by
  apply BitVec.eq_of_getLsbD_eq
  intro j h
  rw [ShiftOp.step, getLsbD_shiftRight_or_bit _ _ h, BitVec.getLsbD_sshiftRight, Nat.add_comm 1 j]
  by_cases top : j = w - 1
  · simp [top, show w - 1 < w by omega, show w - 1 + 1 = w by omega]
  · simp [top, h, show j + 1 < w by omega]

theorem run_sar (k : Nat) (v : BitVec w) (c : Bool) : (ShiftOp.sar.run k v c).1 = v.sshiftRight k := by
  induction k with
  | zero => exact BitVec.sshiftRight_zero.symm
  | succ k ih => rw [ShiftOp.run_succ, BitVec.sshiftRight_add, ← ih, step_sar]

theorem toInt_sshiftRight (v : BitVec w) (k : Nat) : (v.sshiftRight k).toInt = v.toInt / 2 ^ k := by
  rw [BitVec.toInt_sshiftRight, Int.shiftRight_eq_div_pow, Nat.cast_pow, Nat.cast_ofNat]

theorem getLsbD_zero_toNat (v : BitVec w) : v.getLsbD 0 = decide (v.toNat % 2 = 1) := by
  rw [← BitVec.testBit_toNat, Nat.testBit_zero]

theorem getLsbD_zero_toInt (hw : 1 ≤ w) (v : BitVec w) : v.getLsbD 0 = decide (v.toInt % 2 = 1) := by
  obtain ⟨even, -, -⟩ := toInt_bounds hw v
  have value := toInt_cases v
  rw [getLsbD_zero_toNat]
  exact decide_eq_decide.mpr (by omega)

/-- The bit that the last of `k + 1` steps to the left drops is bit `w` of the exact product. -/
theorem msb_shiftLeft (hw : 1 ≤ w) (v : BitVec w) (k : Nat) :
    (v <<< k).msb = decide (v.toNat * 2 ^ (k + 1) / 2 ^ w % 2 = 1) := by
  rw [← Nat.testBit_eq_decide_div_mod_eq, BitVec.msb_eq_getLsbD_last, ← BitVec.testBit_toNat, BitVec.toNat_shiftLeft,
    Nat.testBit_mod_two_pow, ← Nat.shiftLeft_eq, Nat.testBit_shiftLeft, Nat.testBit_shiftLeft]
  simp [show w - 1 < w by omega, show w - 1 ≥ k ↔ w ≥ k + 1 by omega, show w - 1 - k = w - (k + 1) by omega]

/-! ### Every shift and rotate -/

/-- R506 to R513: `k` steps are the closed form. -/
theorem run_result (hw : 1 ≤ w) (op : ShiftOp) {k : Nat} (positive : 0 < k) (v : BitVec w) (c : Bool) :
    ShiftResult op k v c (op.run k v c).1 (op.run k v c).2 := by
  obtain ⟨n, rfl⟩ : ∃ n, k = n + 1 := ⟨k - 1, by omega⟩
  cases op with
  | rol =>
    refine ⟨fun _ => iter_turns_up (bits := fun x => x.1.getLsbD) (fun x _ => getLsbD_step_rol x) (n + 1) (v, c), ?_⟩
    rw [ShiftOp.run_succ]
    exact rol_carry _ hw
  | ror =>
    refine ⟨fun _ => iter_turns_down (bits := fun x => x.1.getLsbD) (fun x _ => getLsbD_step_ror x) (n + 1) (v, c), ?_⟩
    rw [ShiftOp.run_succ]
    exact ror_carry _ hw
  | rcl =>
    exact fun j h => iter_turns_up (bits := fun x => throughCarry x.1 x.2) (fun x _ => throughCarry_step_rcl hw x) _ _
      (Nat.lt_succ_of_le h)
  | rcr =>
    exact fun j h => iter_turns_down (bits := fun x => throughCarry x.1 x.2) (fun x _ => throughCarry_step_rcr hw x) _ _
      (Nat.lt_succ_of_le h)
  | shl =>
    refine ⟨?_, ?_⟩
    · rw [run_shl, BitVec.toNat_shiftLeft, Nat.shiftLeft_eq]
    · rw [← msb_shiftLeft hw, ← run_shl, ShiftOp.run_succ]; rfl
  | shr =>
    refine ⟨?_, ?_⟩
    · rw [run_shr, BitVec.toNat_ushiftRight, Nat.shiftRight_eq_div_pow]
    · rw [Nat.add_sub_cancel, ← Nat.shiftRight_eq_div_pow, ← BitVec.toNat_ushiftRight, ← getLsbD_zero_toNat, ← run_shr,
        ShiftOp.run_succ]
      rfl
  | sar =>
    refine ⟨?_, ?_⟩
    · rw [run_sar, toInt_sshiftRight]
    · rw [Nat.add_sub_cancel, ← toInt_sshiftRight, ← getLsbD_zero_toInt hw, ← run_sar, ShiftOp.run_succ]
      rfl

theorem isShift_eq (op : ShiftOp) : isShift op = op.isShift := by cases op <;> rfl

/-- R507 to R513: OF of a count of 1, the sign bit named by its number. -/
theorem overflow1_eq (op : ShiftOp) (v r : BitVec w) (c : Bool) : op.overflow1 v r c = ShiftOverflow op v r c := by
  cases op <;> simp [ShiftOp.overflow1, ShiftOverflow, BitVec.msb_eq_getLsbD_last]

/-- R506: the result of `k` steps and the FLAGS they leave are the rule's. -/
theorem run_rule (hw : 1 ≤ w) (op : ShiftOp) {k : Nat} (positive : 0 < k) (v : BitVec w) (fl : Word) (draw : Flag → Bool) :
    ShiftRule op k v fl (op.run k v (cf fl)).1
      (op.flagsAfter k v (op.run k v (cf fl)).1 (op.run k v (cf fl)).2 draw fl) := by
  generalize hr : op.run k v (cf fl) = x
  have carry : cf (op.flagsAfter k v x.1 x.2 draw fl) = x.2 := by rw [cf, getLsbD_flagsAfter]; simp
  refine ⟨?_, fun one => ?_, fun shift => ?_, ?_⟩
  · rw [carry, ← hr]; exact run_result hw op positive v (cf fl)
  · rw [carry, ← overflow1_eq, ovf, getLsbD_flagsAfter, if_pos rfl, if_pos one]
  · rw [isShift_eq] at shift
    refine szp_rule (fl := fl) fun j hj => ?_
    rw [getLsbD_flagsAfter, getLsbD_szp]
    fin_cases hj <;> simp [shift]
  · rw [isShift_eq]; exact Frame.flagsAfter_bits op k v _ _ draw fl

/-- R506: every 8-bit form is the shared operation on its operand. -/
theorem exec_of_shift8 {s : State} {op : ShiftOp} {i : Instr} {k : Nat} {dst : Operand8} (h : Shift8 s op i k dst) :
    exec i s = .next (shift8 op k dst s) := by
  cases h <;> rfl

theorem exec_of_shift16 {s : State} {op : ShiftOp} {i : Instr} {k : Nat} {dst : Operand16} (h : Shift16 s op i k dst) :
    exec i s = .next (shift16 op k dst s) := by
  cases h <;> rfl

/-- Settles O34: every form is the shared operation, which for a count of 0 does nothing (`shift8_zero`, `shift16_zero`) and
otherwise leaves the result and FLAGS of the rule (`run_rule`). -/
theorem shiftsAndRotates : Obligations.ShiftsAndRotates := by
  unfold Obligations.ShiftsAndRotates
  intro s op i k
  have rule {w : Nat} (hw : 1 ≤ w) (positive : 0 < k) (v : BitVec w) := run_rule hw op positive v s.flags (drawnFlag s.draws)
  refine ⟨fun dst form => ⟨fun zero => ?_, fun positive => ⟨_, _, ?_, rule (by decide) positive _⟩⟩,
    fun dst form => ⟨fun zero => ?_, fun positive => ⟨_, _, ?_, rule (by decide) positive _⟩⟩⟩
  · rw [exec_of_shift8 form, zero, shift8_zero]
  · exact (exec_of_shift8 form).trans (congrArg _ (if_neg positive.ne'))
  · rw [exec_of_shift16 form, zero, shift16_zero]
  · exact (exec_of_shift16 form).trans (congrArg _ (if_neg positive.ne'))

end Sys2Proof.Proofs
end

section
/-! SUPPORT. String instructions (R550 to R558): one iteration as the rules state it, one step with and without a repeat prefix,
and when a repeat ends. -/

namespace Sys2Proof.Proofs

open Sys2Proof.Machine Sys2Proof.Spec

variable {s t : State} {i : Instr}

/-! ### Index registers (R550) -/

theorem add_strDelta (n v : Word) (direction : df t.flags = df s.flags) : v + strDelta t n = stepped s n v := by
  have flag : t.flag .df = df s.flags := direction
  rw [strDelta, stepped, flag]
  split
  · exact (BitVec.sub_eq_add_neg v n).symm
  · rfl

theorem stepSi_eq (n : Word) (direction : df t.flags = df s.flags) :
    stepSi n t = { t with regs := { t.regs with si := stepped s n t.regs.si } } := by
  rw [stepSi, add_strDelta n _ direction]; rfl

theorem stepDi_eq (n : Word) (direction : df t.flags = df s.flags) :
    stepDi n t = { t with regs := { t.regs with di := stepped s n t.regs.di } } := by
  rw [stepDi, add_strDelta n _ direction]; rfl

/-- SI moves first, and DI by the same DF. -/
theorem stepSiDi_eq (n : Word) (direction : df t.flags = df s.flags) :
    stepDi n (stepSi n t) =
      { t with regs := { t.regs with si := stepped s n t.regs.si, di := stepped s n t.regs.di } } := by
  rw [stepDi_eq (t := stepSi n t) n direction, stepSi_eq n direction]

theorem df_subFlags {w : Nat} (hw : 1 ≤ w) (d v : BitVec w) (b : Bool) (fl : Word) : df (subFlags d v b fl).2 = df fl :=
  (subFlags_rule hw d v b fl).others 10 (by decide)

/-! ### One iteration (R554 to R558) -/

theorem movs8_iteration (s : State) : Iteration s .movsb (movs8 s) := by
  rw [movs8, stepSiDi_eq (s := s)]; exacts [.movsb, rfl]

theorem movs16_iteration (s : State) : Iteration s .movsw (movs16 s) := by
  rw [movs16, stepSiDi_eq (s := s)]; exacts [.movsw, rfl]

theorem cmps8_iteration (s : State) : Iteration s .cmpsb (cmps8 s) := by
  rw [cmps8, stepSiDi_eq (s := s)]
  exacts [.cmpsb _ _ (subFlags_rule (by decide) ..), df_subFlags (by decide) ..]

theorem cmps16_iteration (s : State) : Iteration s .cmpsw (cmps16 s) := by
  rw [cmps16, stepSiDi_eq (s := s)]
  exacts [.cmpsw _ _ (subFlags_rule (by decide) ..), df_subFlags (by decide) ..]

theorem scas8_iteration (s : State) : Iteration s .scasb (scas8 s) := by
  rw [scas8, stepDi_eq (s := s)]
  exacts [.scasb _ _ (subFlags_rule (by decide) ..), df_subFlags (by decide) ..]

theorem scas16_iteration (s : State) : Iteration s .scasw (scas16 s) := by
  rw [scas16, stepDi_eq (s := s)]
  exacts [.scasw _ _ (subFlags_rule (by decide) ..), df_subFlags (by decide) ..]

theorem lods8_iteration (s : State) : Iteration s .lodsb (lods8 s) := by
  rw [lods8, stepSi_eq (s := s)]; exacts [.lodsb, rfl]

theorem lods16_iteration (s : State) : Iteration s .lodsw (lods16 s) := by
  rw [lods16, stepSi_eq (s := s)]; exacts [.lodsw, rfl]

theorem stos8_iteration (s : State) : Iteration s .stosb (stos8 s) := by
  rw [stos8, stepDi_eq (s := s)]; exacts [.stosb, rfl]

theorem stos16_iteration (s : State) : Iteration s .stosw (stos16 s) := by
  rw [stos16, stepDi_eq (s := s)]; exacts [.stosw, rfl]

theorem cx_of_iteration (h : Iteration s i t) : t.regs.cx = s.regs.cx := by cases h <;> rfl

theorem tr_of_iteration (h : Iteration s i t) : t.tr = s.tr := by cases h <;> rfl

/-! ### One step (R551, R552) -/

/-- The instructions whose repeat also ends by ZF. -/
def endsByZf (i : Instr) : Bool := i ∈ [Instr.cmpsb, .cmpsw, .scasb, .scasw]

theorem endsByZf_iff : endsByZf i = true ↔ i ∈ [Instr.cmpsb, .cmpsw, .scasb, .scasw] := decide_eq_true_iff

/-- Every string instruction runs an iteration of the rules through the repeat step. -/
theorem exec_of_mem_stringInstrs (h : i ∈ stringInstrs) (s : State) :
    ∃ body : State → State, exec i s = .next (stringStep (endsByZf i) body s) ∧ Iteration s i (body s) := by
  simp only [stringInstrs, List.mem_cons, List.not_mem_nil, or_false] at h
  rcases h with rfl | rfl | rfl | rfl | rfl | rfl | rfl | rfl | rfl | rfl
  · exact ⟨movs8, rfl, movs8_iteration s⟩
  · exact ⟨movs16, rfl, movs16_iteration s⟩
  · exact ⟨cmps8, rfl, cmps8_iteration s⟩
  · exact ⟨cmps16, rfl, cmps16_iteration s⟩
  · exact ⟨scas8, rfl, scas8_iteration s⟩
  · exact ⟨scas16, rfl, scas16_iteration s⟩
  · exact ⟨lods8, rfl, lods8_iteration s⟩
  · exact ⟨lods16, rfl, lods16_iteration s⟩
  · exact ⟨stos8, rfl, stos8_iteration s⟩
  · exact ⟨stos16, rfl, stos16_iteration s⟩

theorem repeats_iff (r : Rep) (t : State) : repeats (endsByZf i) r t = true ↔ ¬ repeatEnds i r t := by
  have flag : t.flag .zf = zf t.flags := rfl
  rw [repeatEnds, ← endsByZf_iff]
  cases r <;> cases endsByZf i <;> simp [repeats, flag]

section Step

variable (z : Bool) (body : State → State)

theorem stringStep_of_no_prefix (unprefixed : s.tr.rep = none) : stringStep z body s = body s := by
  rw [stringStep, unprefixed]

theorem stringStep_of_cx_zero {r : Rep} (prefixed : s.tr.rep = some r) (zero : s.regs.cx = 0) :
    stringStep z body s = s := by
  simp only [stringStep, prefixed, if_pos zero]

theorem stringStep_of_cx_ne_zero {r : Rep} (prefixed : s.tr.rep = some r) (more : s.regs.cx ≠ 0) :
    stringStep z body s =
      (let u := (body s).setReg16 .cx ((body s).regs.cx - 1)
       if repeats z r u then { u with ip := u.tr.startIp } else u) := by
  simp only [stringStep, prefixed, if_neg more]

end Step

/-- Settles O44: every string instruction is one iteration of the rules through the repeat step (`exec_of_mem_stringInstrs`),
which goes back to `start_IP` just where the repeat does not end (`repeats_iff`). -/
theorem stringInstructions : Obligations.StringInstructions := by
  unfold Obligations.StringInstructions
  intro s i mem
  obtain ⟨body, run, iteration⟩ := exec_of_mem_stringInstrs mem s
  refine ⟨fun unprefixed => ⟨_, ?_, iteration⟩, fun r prefixed zero => ?_, fun r prefixed more => ⟨_, iteration, ?_⟩⟩
  · rw [run, stringStep_of_no_prefix _ _ unprefixed]
  · rw [run, stringStep_of_cx_zero _ _ prefixed zero]
  · rw [run, stringStep_of_cx_ne_zero _ _ prefixed more, cx_of_iteration iteration]
    refine ⟨fun ends => ?_, fun goesOn => ?_⟩
    · exact congrArg _ (if_neg fun h => (repeats_iff r _).1 h ends)
    · rw [← tr_of_iteration iteration]
      exact congrArg _ (if_pos ((repeats_iff r _).2 goesOn))

end Sys2Proof.Proofs
end

section
/-! SUPPORT. Control transfer (R600 to R638): the targets in numbers, the far calls and returns as record updates, and when a
conditional jump or a loop is taken. -/

namespace Sys2Proof.Proofs

open Sys2Proof.Machine Sys2Proof.Spec

variable {s : State} {i : Instr}

/-! ### Jumps (R600 to R605) -/

theorem relTarget_sext16_toNat (s : State) (disp : Byte) :
    ((relTarget s (sext16 disp)).toNat : Int) = (s.ip.toNat + disp.toInt) % 65536 :=
  add_sext16_toNat (toNat_eq_mod s.ip) disp

theorem relTarget_toNat (s : State) (disp : Word) : (relTarget s disp).toNat = (s.ip.toNat + disp.toNat) % 65536 :=
  add_toNat (toNat_eq_mod s.ip) disp

/-- Settles O45: each jump is one record update, and a relative target is a sum modulo 2^16 (`relTarget_sext16_toNat`,
`relTarget_toNat`). -/
theorem jumps : Obligations.Jumps := by
  unfold Obligations.Jumps
  intro s
  exact ⟨fun v => ⟨_, rfl, relTarget_sext16_toNat s v⟩, fun v => ⟨_, rfl, relTarget_toNat s v⟩, fun _ _ => rfl,
    fun _ => rfl, fun _ => rfl⟩

/-! ### Calls and returns (R606 to R613) -/

/-- R607, R609: the two pushes of a far call, CS above `next_IP`. -/
theorem callFar_eq (off seg : Word) (s : State) : callFar off seg s =
    { ({ s with regs := { s.regs with sp := s.regs.sp - 4 } }.segWrite16 s.segs.ss (s.regs.sp - 2)
        s.segs.cs).segWrite16 s.segs.ss (s.regs.sp - 4) s.ip with
      ip := off, segs := { s.segs with cs := seg } } := by
  simp only [callFar, jumpFar, State.setSreg, Segs.set, State.push16_eq, State.segWrite16, State.memWrite16, sub_two_sub_two]

/-- R612: the two pops of a far return. -/
theorem retFar_eq (s : State) : retFar s =
    { s with
      ip := s.segRead16 s.segs.ss s.regs.sp
      segs := { s.segs with cs := s.segRead16 s.segs.ss (s.regs.sp + 2) }
      regs := { s.regs with sp := s.regs.sp + 4 } } := by
  have popped : s.regs.sp + 2 + 2 = s.regs.sp + 4 := BitVec.add_assoc ..
  rw [← popped]; rfl

/-- R611, R613: the stack after the pops (`k` bytes) and the release of `n` more. -/
theorem released_sp_toNat (sp k n : Word) : (sp + k + n).toNat = (sp.toNat + k.toNat + n.toNat) % 65536 :=
  add_toNat (BitVec.toNat_add sp k) n

/-- Settles O46: the near forms are record updates, the far ones by `callFar_eq` and `retFar_eq`, and a release adds to SP
(`released_sp_toNat`). -/
theorem callsAndReturns : Obligations.CallsAndReturns := by
  unfold Obligations.CallsAndReturns
  intro s
  refine ⟨fun v => ⟨_, rfl, relTarget_toNat s v⟩, fun _ => rfl, fun off seg => ?_, fun m => ?_, rfl,
    fun n => ⟨_, released_sp_toNat s.regs.sp 2 n, rfl⟩, ?_, fun n => ⟨_, released_sp_toNat s.regs.sp 4 n, ?_⟩⟩
  · exact congrArg _ (callFar_eq off seg s)
  · exact congrArg _ (callFar_eq _ _ s)
  · exact congrArg _ (retFar_eq s)
  · exact congrArg (Host.Outcome.next ∘ release n) (retFar_eq s)

/-! ### Conditional jumps (R614 to R630) -/

/-- R614: each conditional jump tests the condition of its number, which says of FLAGS what its name says. -/
theorem exec_of_jcc {v : Byte} {taken : Prop} (h : Jcc s.flags i v taken) :
    ∃ cc, exec i s = .next (jumpIf cc v s) ∧ (condition cc s.flags = true ↔ taken) := by
  have clear (b : Bool) : (!b) = true ↔ b = false := .of_eq (Bool.not_eq_true' b)
  cases h with
  | jo | jb | jz | js | jp => exact ⟨_, rfl, .rfl⟩
  | jno | jnb | jnz | jns | jnp => exact ⟨_, rfl, clear _⟩
  | jbe => exact ⟨_, rfl, Bool.or_eq_true_iff⟩
  | ja => exact ⟨_, rfl, Bool.and_eq_true_iff.trans (and_congr (clear _) (clear _))⟩
  | jl => exact ⟨_, rfl, bne_iff_ne⟩
  | jge => exact ⟨_, rfl, beq_iff_eq⟩
  | jle => exact ⟨_, rfl, Bool.or_eq_true_iff.trans (or_congr_right bne_iff_ne)⟩
  | jg => exact ⟨_, rfl, Bool.and_eq_true_iff.trans (and_congr (clear _) beq_iff_eq)⟩

/-- Settles O47: every form is a jump on its condition (`exec_of_jcc`), which goes to the relative target or changes
nothing (`jumpsIff_jumpIf`). -/
theorem conditionalJumps : Obligations.ConditionalJumps := by
  unfold Obligations.ConditionalJumps
  intro s i v taken form
  obtain ⟨cc, run, holds⟩ := exec_of_jcc form
  obtain ⟨goes, stays⟩ := jumpsIff_jumpIf run holds
  exact ⟨fun h => ⟨_, goes h, relTarget_sext16_toNat s v⟩, stays⟩

/-! ### Loops (R631 to R634) -/

/-- R631 to R633: a loop instruction decrements CX and jumps just where `c`: CX is not 0, and `more`. -/
theorem loopIf_eq {more : Bool} {c : Prop} [Decidable c] (v : Byte) (h : s.regs.cx - 1 ≠ 0 ∧ more = true ↔ c) :
    loopIf more v s =
      (let u := { s with regs := { s.regs with cx := s.regs.cx - 1 } }
       if c then { u with ip := relTarget s (sext16 v) } else u) :=
  if_congr h rfl rfl

theorem sub_one_toNat (x : Word) : (x - 1).toNat = (x.toNat + 65535) % 65536 := by
  rw [BitVec.toNat_sub, Nat.add_comm]
  rfl

/-- Settles O49: LOOP, LOOPZ and LOOPNZ are one decrement and test (`loopIf_eq`) with their own condition on
ZF, and JCXZ is its rule as defined. -/
theorem loops : Obligations.Loops := by
  unfold Obligations.Loops
  intro s v
  refine ⟨_, _, sub_one_toNat s.regs.cx, relTarget_sext16_toNat s v, ⟨?_, ?_, ?_⟩, rfl⟩
  · exact congrArg Host.Outcome.next (loopIf_eq v (and_iff_left rfl))
  · exact congrArg Host.Outcome.next (loopIf_eq v .rfl)
  · exact congrArg Host.Outcome.next (loopIf_eq v (and_congr_right fun _ => .of_eq (Bool.not_eq_true' _)))

/-! ### Interrupt instructions (R635 to R638) -/

/-- R638: IRET as one record update. -/
theorem iret_eq (s : State) : iret s =
    { s with
      ip := s.segRead16 s.segs.ss s.regs.sp
      segs := { s.segs with cs := s.segRead16 s.segs.ss (s.regs.sp + 2) }
      flags := s.segRead16 s.segs.ss (s.regs.sp + 4)
      regs := { s.regs with sp := s.regs.sp + 6 }
      intDelay := s.intDelay || s.params.iretDelay } := by
  rw [iret, interruptReturn_eq]

/-- Settles O50: INT and INT3 are the interrupt-call by definition, INTO is where OF is set, and IRET is `iret_eq`. -/
theorem interruptInstructions : Obligations.InterruptInstructions := by
  unfold Obligations.InterruptInstructions
  intro s
  refine ⟨fun _ => rfl, rfl, fun set => ?_, fun clear => ?_, congrArg _ (iret_eq s)⟩
  · exact congrArg _ (if_pos set)
  · exact congrArg _ (if_neg (Bool.eq_false_iff.mp clear))

end Sys2Proof.Proofs
end

section
/-! SUPPORT. Processor control (R700 to R709, R712, R713): a flag instruction as the write of one bit of FLAGS, and the
callback trap with and without a registry entry. -/

namespace Sys2Proof.Proofs

open Sys2Proof.Machine Sys2Proof.Spec

/-! ### Flag instructions, HLT, WAIT and ESC (R700 to R709) -/

theorem getLsbD_setFlag_same (fl : Word) (f : Flag) (b : Bool) : (Machine.setFlag fl f b).getLsbD f.bit = b :=
  (getLsbD_setFlag fl f b f.bit).trans (if_pos rfl)

theorem setFlag_keeps (fl : Word) (f : Flag) (b : Bool) : Keeps [f.bit] fl (Machine.setFlag fl f b) := fun k hk =>
  (getLsbD_setFlag fl f b k).trans (if_neg fun same => hk (List.mem_singleton.mpr same))

/-- R700 to R706: an instruction that writes the flag `f` changes FLAGS only, and of it that bit only. -/
theorem flag_write_of_exec {i : Instr} {s : State} {f : Flag} {b : Bool} (h : exec i s = .next (s.setFlag f b)) :
    ∃ fl, exec i s = .next { s with flags := fl } ∧ fl.getLsbD f.bit = b ∧ Keeps [f.bit] s.flags fl :=
  ⟨_, h, getLsbD_setFlag_same s.flags f b, setFlag_keeps s.flags f b⟩

/-- Settles O51: CLC, STC, CMC, CLD, STD and CLI are each the write of one flag (`flag_write_of_exec`), STI is that write with
the delay, and HLT, WAIT and the ESC forms are their rules as defined. -/
theorem processorControl : Obligations.ProcessorControl := by
  unfold Obligations.ProcessorControl
  intro s
  refine ⟨?clc, ?stc, ?cmc, ?cld, ?std, ?cli, ?sti, rfl, rfl, fun _ _ => ⟨rfl, rfl, rfl, rfl, rfl, rfl, rfl, rfl⟩⟩
  case clc => exact flag_write_of_exec (f := .cf) rfl
  case stc => exact flag_write_of_exec (f := .cf) rfl
  case cmc => exact flag_write_of_exec (f := .cf) rfl
  case cld => exact flag_write_of_exec (f := .df) rfl
  case std => exact flag_write_of_exec (f := .df) rfl
  case cli => exact flag_write_of_exec (f := .ie) rfl
  case sti => exact ⟨_, rfl, getLsbD_setFlag_same s.flags .ie true, setFlag_keeps s.flags .ie true⟩

/-! ### The callback trap and the undefined encodings (R712, R713) -/

section Callback
variable {s : State} {id : Word}

/-- R712, R808: without a registry entry nothing runs, and the machine ends with IP at `start_IP`. -/
theorem callback_of_unregistered (h : s.registry.find id = none) :
    callback id s = faultAtStart (.unknownCallback id) s := by
  rw [callback, h]

/-- R712, R832: the registered handler runs inside the step. -/
theorem callback_of_registered {handler : Nat} (h : s.registry.find id = some handler) :
    callback id s = runHandler handler s := by
  rw [callback, h]

end Callback

/-- Settles O53: the callback trap by the entry found (`callback_of_unregistered`, `callback_of_registered`); an undefined
encoding ends the machine as defined, with and without a ModRM byte fetched. -/
theorem trapOpcodes : Obligations.TrapOpcodes := by
  unfold Obligations.TrapOpcodes
  intro s rm id op
  refine ⟨fun unregistered => ?_, fun handler registered => ?_, rfl, fun m => rfl⟩
  · exact congrArg Host.Outcome.next (callback_of_unregistered unregistered)
  · exact congrArg Host.Outcome.next (callback_of_registered registered)

end Sys2Proof.Proofs
end

section
/-! SUPPORT. The answers of the MCB allocator's operations (R753 to R755, R764, R766 to R768): what an answer says of the chain
and of the status. The boot chain. -/

namespace Sys2Proof.Proofs

open Sys2Proof.Machine Sys2Proof.Spec

/-! ### The answer of an operation (R766 to R768) -/

/-- R767: an answer is kept, and nothing else but the status changes. -/
theorem withMcbAnswer_eq (x : State × Option McbResult) :
    ∃ st, withMcbAnswer x = { x.1 with mcbResult := x.2, status := st } := by
  obtain ⟨t, _ | r⟩ := x
  · exact ⟨_, rfl⟩
  · cases r <;> exact ⟨_, rfl⟩

theorem withMcbAnswer_mcbResult (x : State × Option McbResult) : (withMcbAnswer x).mcbResult = x.2 := by
  obtain ⟨st, e⟩ := withMcbAnswer_eq x
  rw [e]

/-- Keeping the answer does not touch the chain. -/
theorem mcbValidate_withMcbAnswer (x : State × Option McbResult) : mcbValidate (withMcbAnswer x) = mcbValidate x.1 := by
  obtain ⟨st, e⟩ := withMcbAnswer_eq x
  exact mcbValidate_congr (by rw [e]) (by rw [e])

/-- R768: `Corrupt(h)` ends the machine. -/
theorem withMcbAnswer_status_of_corrupt {x : State × Option McbResult} {h : Nat} (hx : x.2 = some (.corrupt h)) :
    (withMcbAnswer x).status = .fault (.mcbCorrupt h) := by
  obtain ⟨t, r⟩ := x
  subst hx
  rfl

/-- R767: any other answer is kept and leaves the status as it was. -/
theorem withMcbResult_eq {x : State × McbResult} (hx : ∀ h, x.2 ≠ .corrupt h) :
    withMcbResult x = { x.1 with mcbResult := some x.2 } := by
  obtain ⟨t, r⟩ := x
  cases r with
  | corrupt h => exact absurd rfl (hx h)
  | ok | valid | outOfMemory | tooSmall | refused => rfl

/-- R766: where `x` answers Ok, it leaves a valid chain. -/
def ValidIfOk (x : State × Option McbResult) : Prop := ∀ seg, x.2 = some (.ok seg) → mcbValidate x.1 = none

theorem validIfOk_of_not_ok {t : State} {r : Option McbResult} (h : ∀ seg, r ≠ some (.ok seg)) : ValidIfOk (t, r) :=
  fun seg ok => absurd ok (h seg)

theorem okAfterValidate_validIfOk (t : State) (seg : Nat) :
    ValidIfOk ((okAfterValidate t seg).1, some (okAfterValidate t seg).2) := by
  unfold okAfterValidate
  split
  · exact validIfOk_of_not_ok (by simp)
  · next valid => exact fun _ _ => valid

theorem mcbAllocate_validIfOk (s : State) (r : Word) (st : Strategy) (pid : Word) :
    ValidIfOk ((mcbAllocate s r st pid).1, some (mcbAllocate s r st pid).2) := by
  unfold mcbAllocate
  dsimp only
  split
  · exact validIfOk_of_not_ok (by simp)
  · split
    · exact validIfOk_of_not_ok (by simp)
    · exact validIfOk_of_not_ok (by simp)
    · exact okAfterValidate_validIfOk _ _

theorem mcbFree_validIfOk (s : State) (seg : Word) : ValidIfOk ((mcbFree s seg).1, some (mcbFree s seg).2) := by
  unfold mcbFree
  dsimp only
  split
  · exact validIfOk_of_not_ok (by simp)
  · exact okAfterValidate_validIfOk _ _

theorem mcbReallocate_validIfOk (s : State) (seg m : Word) :
    ValidIfOk ((mcbReallocate s seg m).1, some (mcbReallocate s seg m).2) := by
  unfold mcbReallocate
  dsimp only
  split
  · exact validIfOk_of_not_ok (by simp)
  · split
    · exact validIfOk_of_not_ok (by simp)
    · split
      · exact validIfOk_of_not_ok (by simp)
      · exact okAfterValidate_validIfOk _ _

theorem mcbCoalesce_validIfOk (s : State) (h : Word) : ValidIfOk (mcbCoalesce s h) := by
  unfold mcbCoalesce
  split <;> exact validIfOk_of_not_ok (by simp)

/-- R766, R767: every operation ends by keeping an answer, which is Ok only on a valid chain. -/
theorem runMcb_answers (op : McbOp) (s : State) : ∃ x, runMcb op s = withMcbAnswer x ∧ ValidIfOk x := by
  cases op with
  | boot => exact ⟨(mcbBoot s, none), rfl, validIfOk_of_not_ok (by simp)⟩
  | coalesce h => exact ⟨_, rfl, mcbCoalesce_validIfOk s h⟩
  | validate => exact ⟨(s, some _), rfl, validIfOk_of_not_ok (by cases mcbValidate s <;> simp)⟩
  | allocate r st pid => exact ⟨(_, some _), rfl, mcbAllocate_validIfOk s r st pid⟩
  | free seg => exact ⟨(_, some _), rfl, mcbFree_validIfOk s seg⟩
  | reallocate seg m => exact ⟨(_, some _), rfl, mcbReallocate_validIfOk s seg m⟩

/-! ### One free block (R753, R754) -/

theorem chain_of_singleFree {s : State} {n : Nat} (hs : SingleFree s n) (hn : s.params.mcbBase.toNat + 1 + n ≤ 65536) :
    Chain s s.params.mcbBase.toNat [⟨0, n⟩] :=
  ⟨hs.sig, hs.owner, hs.size, hn⟩

theorem runMcb_boot_singleFree (s : State) (hs : s.params.mcbTop.toNat ≤ 65536) :
    SingleFree (runMcb .boot s) (s.params.mcbTop.toNat - s.params.mcbBase.toNat - 1) := by
  obtain ⟨sig, owner, size⟩ := setMcb_self (s := s) s.params.mcbBase.isLt sigLast 0
    (n := s.params.mcbTop.toNat - s.params.mcbBase.toNat - 1) (by omega)
  exact ⟨sig, owner, size⟩

/-- R764, R768: Free at a header without a valid signature. -/
theorem runMcb_free_of_invalid {s : State} {seg : Word} (h : mcbValid s (headerOf seg) = false) :
    runMcb (.free seg) s =
      { s with mcbResult := some (.corrupt (headerOf seg)), status := .fault (.mcbCorrupt (headerOf seg)) } := by
  rw [runMcb, mcbFree, if_pos h]
  rfl

theorem mcbValid_eq_false {s : State} {h : Nat} (more : mcbSig s h ≠ 0x4D) (last : mcbSig s h ≠ 0x5A) :
    mcbValid s h = false :=
  Bool.or_eq_false_iff.2 ⟨beq_eq_false_iff_ne.2 more, beq_eq_false_iff_ne.2 last⟩

/-- Settles O58: the boot header is the one written (`runMcb_boot_singleFree`), what an answer says of the chain and of the
status is `runMcb_answers`, and the frame is `runMcb_change`. -/
theorem mcbResults : Obligations.McbResults := by
  unfold Obligations.McbResults
  intro s op t
  obtain ⟨x, answers, valid⟩ := runMcb_answers op s
  have ht : t = withMcbAnswer x := answers
  refine ⟨?boot, ?ok, ?corrupt, ?refused, ?badHeader, ?frame⟩
  case boot =>
    rintro rfl hb htop
    have single := runMcb_boot_singleFree s htop
    have fits : s.params.mcbBase.toNat + 1 + (s.params.mcbTop.toNat - s.params.mcbBase.toNat - 1) ≤ 65536 := by omega
    exact ⟨single, mcbValidate_of_chain (chain_of_singleFree single fits) (List.cons_ne_nil _ _)⟩
  case ok =>
    intro seg ok
    rw [ht, withMcbAnswer_mcbResult] at ok
    rw [ht, mcbValidate_withMcbAnswer, valid seg ok]
  case corrupt =>
    intro h corrupt
    rw [ht, withMcbAnswer_mcbResult] at corrupt
    rw [ht, withMcbAnswer_status_of_corrupt corrupt]
  case refused =>
    rintro r st rfl
    rfl
  case badHeader =>
    rintro seg rfl more last
    exact runMcb_free_of_invalid (mcbValid_eq_false more last)
  case frame =>
    obtain ⟨m, st, r, e, -⟩ := runMcb_change op s
    rw [show t = _ from e]
    exact ⟨rfl, rfl, rfl, rfl, rfl⟩

end Sys2Proof.Proofs
end

section
/-! SUPPORT. The MCB allocator on a chain of blocks (R756 to R763): the chain an operation leaves, its answer and the headers it
may change. Allocate. -/

namespace Sys2Proof.Proofs

open Sys2Proof.Machine Sys2Proof.Spec

/-! ### What an operation leaves on a chain -/

section Frames
variable {s t : State} {h : Nat} {bs : List Block}

theorem mcbAddr_of_lt {k j : Nat} (hk : k < 65536) (hj : j < 5) : mcbAddr k j = 16 * k + j := by
  simp only [mcbAddr, Config.memSize]; omega

theorem heads_lt_of_chain (hc : Chain s h bs) {k : Nat} (hk : Heads h bs k) : k < 65536 :=
  Nat.lt_of_lt_of_le (heads_lt hk) hc.span_le

theorem heads_append_right {xs : List Block} {k : Nat} (hk : Heads (h + span xs) bs k) : Heads h (xs ++ bs) k := by
  obtain ⟨x, hx, e⟩ := hk
  exact ⟨x, by rw [placed_append]; exact List.mem_append_right _ hx, e⟩

/-- The last blocks of a chain replaced, by writes to the new headers only. -/
theorem chain_replace_suffix {xs ys : List Block} (hc : Chain s h (xs ++ bs)) (hb : bs ≠ []) (hy : ys ≠ [])
    (ht : Chain t (h + span xs) ys) (frame : HeaderFrame (Heads (h + span xs) ys) s t) : Chain t h (xs ++ ys) :=
  hc.replace hb hy ht fun _ _ before lt =>
    frame.header (fun _ => heads_lt_of_chain ht) lt fun hk => Nat.not_le_of_lt before (heads_ge hk)

theorem keepsOutside_of_frame {P : Nat → Prop} {xs : List (Nat × Block)} (frame : HeaderFrame P s t)
    (hP : ∀ k, P k → k < 65536 ∧ ∃ x ∈ xs, x.1 = k) : KeepsOutside xs s t := by
  intro a outside
  refine frame.bytes a fun k hk j hj e => ?_
  obtain ⟨lt, x, hx, rfl⟩ := hP k hk
  exact outside x hx j hj (e.trans (mcbAddr_of_lt lt hj))

/-- The answer of an operation that finds no corruption, the chain it leaves and the headers `P` it may change. -/
structure McbLeaves (s : State) (x : State × McbResult) (bs : List Block) (r : McbResult) (P : Nat → Prop) : Prop where
  answer : x.2 = r
  notCorrupt : ∀ c, r ≠ .corrupt c
  chain : Chain x.1 s.params.mcbBase.toNat bs
  nonempty : bs ≠ []
  frame : HeaderFrame P s x.1

/-- An operation that would answer Ok on a chain of blocks does. -/
theorem okAfterValidate_of_chain {seg : Nat} (hc : Chain t t.params.mcbBase.toNat bs) (hb : bs ≠ []) :
    okAfterValidate t seg = (t, .ok seg) := by
  rw [okAfterValidate, mcbValidate_of_chain hc hb]

theorem leaves_okAfterValidate {P : Nat → Prop} (hc : Chain t s.params.mcbBase.toNat bs) (hb : bs ≠ [])
    (frame : HeaderFrame P s t) (seg : Nat) : McbLeaves s (okAfterValidate t seg) bs (.ok seg) P := by
  rw [okAfterValidate_of_chain (by rw [frame.params]; exact hc) hb]
  exact ⟨rfl, by simp, hc, hb, frame⟩

namespace McbLeaves
variable {x : State × McbResult} {r : McbResult} {P : Nat → Prop}

theorem eq (hx : McbLeaves s x bs r P) : x = (x.1, r) := Prod.ext rfl hx.answer

theorem validate (hx : McbLeaves s x bs r P) : mcbValidate x.1 = none :=
  mcbValidate_of_chain (by rw [hx.frame.params]; exact hx.chain) hx.nonempty

theorem withMcbResult_eq (hx : McbLeaves s x bs r P) : withMcbResult x = { x.1 with mcbResult := some r } := by
  rw [Proofs.withMcbResult_eq (by rw [hx.answer]; exact hx.notCorrupt), hx.answer]

/-- The state after the operation, its answer kept. -/
theorem run (hx : McbLeaves s x bs r P) :
    Chain (withMcbResult x) s.params.mcbBase.toNat bs ∧ mcbValidate (withMcbResult x) = none ∧
      withMcbResult x = { s with mem := (withMcbResult x).mem, mcbResult := some r } := by
  have valid : mcbValidate (withMcbResult x) = none := (mcbValidate_withMcbAnswer (x.1, some x.2)).trans hx.validate
  refine ⟨?_, valid, ?_⟩ <;> rw [hx.withMcbResult_eq]
  · exact hx.chain.congr fun _ _ _ => ⟨rfl, rfl, rfl⟩
  · exact congrArg (fun u : State => { u with mcbResult := some r }) hx.frame.only

theorem keepsOutside (hx : McbLeaves s x bs r P) {xs : List (Nat × Block)} (hP : ∀ k, P k → k < 65536 ∧ ∃ y ∈ xs, y.1 = k) :
    KeepsOutside xs s (withMcbResult x) := by
  rw [hx.withMcbResult_eq]
  show KeepsOutside xs s x.1
  exact keepsOutside_of_frame hx.frame hP

end McbLeaves

end Frames

/-! ### Allocate (R757 to R763) -/

theorem pieces_append_ne_nil {st : Strategy} {r : Nat} {pid : Word} {b : Block} {bs : List Block} :
    pieces st r pid b ++ bs ≠ [] := by
  unfold pieces
  split
  · cases st <;> simp
  · simp

/-- R761, R762: a fitting block of a chain split where it stands. -/
theorem split_fitting {t : State} {h r : Nat} {ms : List Block} {x : Nat × Block} (st : Strategy) (pid : Word)
    (hc : Chain t h ms) (hx : x ∈ fitting r h ms) :
    let ns := (placed h ms).flatMap fun y => if y.1 = x.1 then pieces st r pid y.2 else [y.2]
    ∃ u, split st t x.1 r pid = (u, dataSegment st r x.1 x.2) ∧ Chain u h ns ∧ ns ≠ [] ∧
      HeaderFrame (Heads h ns) t u := by
  obtain ⟨inChain, free, large⟩ : x ∈ placed h ms ∧ x.2.owner = 0 ∧ r ≤ x.2.size := by
    simpa only [fitting, List.mem_filter, decide_eq_true_eq] using hx
  obtain ⟨xs, ys, rfl, place⟩ := of_mem_placed inChain
  rw [place, replaceAt, List.append_assoc]
  obtain ⟨u, splits, chain, frame⟩ := split_chain (st := st) (pid := pid) hc.suffix free large
  refine ⟨u, splits, ?_, ?_, frame.mono fun k => heads_append_right⟩
  · exact chain_replace_suffix hc (List.cons_ne_nil _ _) pieces_append_ne_nil chain frame
  · exact List.append_ne_nil_of_right_ne_nil _ pieces_append_ne_nil

section Allocated
variable {h r : Nat} {bs : List Block} {st : Strategy}

/-- R763: no free block is large enough. -/
theorem allocated_of_none (pid : Word) (found : chosenOf st (fitting r h (merged bs)) = none) :
    allocated h bs r st pid = (merged bs, .outOfMemory (largestFree (merged bs))) := by
  simp only [allocated, found]

/-- R758 to R762: a block is chosen and split. -/
theorem allocated_of_some (pid : Word) {x : Nat × Block} (found : chosenOf st (fitting r h (merged bs)) = some x) :
    allocated h bs r st pid =
      ((placed h (merged bs)).flatMap fun y => if y.1 = x.1 then pieces st r pid y.2 else [y.2],
        .ok (dataSegment st r x.1 x.2)) := by
  simp only [allocated, found]

end Allocated

/-- R757 to R763: Allocate on any chain of blocks. -/
theorem mcbAllocate_leaves {s : State} {bs : List Block} (r : Word) (st : Strategy) {pid : Word}
    (hc : Chain s s.params.mcbBase.toNat bs) (hb : bs ≠ []) (hp : pid ≠ 0) :
    let x := allocated s.params.mcbBase.toNat bs r.toNat st pid
    McbLeaves s (mcbAllocate s r st pid) x.1 x.2
      fun k => Heads s.params.mcbBase.toNat bs k ∨ Heads s.params.mcbBase.toNat x.1 k := by
  obtain ⟨t, walk, frame, chain⟩ := allocWalk_chain (st := st) (r := r.toNat) (fuel := mcbFuel) (chosen := none)
    (largest := 0) (by have := hc.length_le; unfold mcbFuel; omega) hb hc (by simp)
  rw [foldl_pickOne, Option.map_none, Nat.zero_max] at walk
  unfold mcbAllocate
  rw [if_neg hp, walk]
  cases found : chosenOf st (fitting r.toNat s.params.mcbBase.toNat (merged bs)) with
  | none =>
    rw [allocated_of_none pid found]
    exact ⟨rfl, fun _ => McbResult.noConfusion, chain, merged_ne_nil hb, frame.mono fun _ => .inl⟩
  | some x =>
    rw [allocated_of_some pid found]
    obtain ⟨u, splits, chain', nonempty, frame'⟩ := split_fitting st pid chain (chosenOf_mem found)
    dsimp only [Option.map_some]
    rw [splits]
    exact leaves_okAfterValidate chain' nonempty ((frame.mono fun _ hk => .inl hk).trans (frame'.mono fun _ hk => .inr hk)) _

section Single
variable {s : State} {h n : Nat} {st : Strategy}

theorem coalesce_of_last {fuel : Nat} (last : mcbSig s h = sigLast) : coalesce (fuel + 1) s h = (s, none) := by
  rw [coalesce, if_pos last]

/-- R757: the walk over one free block that is too small changes nothing. -/
theorem allocWalk_single_of_lt {r fuel : Nat} (hc : Chain s h [⟨0, n⟩]) (hr : n < r) :
    allocWalk (fuel + 1) st r s h none 0 = (s, .done none n) := by
  have owner : mcbOwner s h = 0 := hc.2.1
  have size : mcbSize s h = n := hc.2.2.1
  have last : mcbSig s h = sigLast := hc.isLast.2 rfl
  have stays : coalesce mcbFuel s h = (s, none) := coalesce_of_last last
  have small : ¬(mcbOwner s h = 0 ∧ r ≤ mcbSize s h) := fun x => by rw [size] at x; exact Nat.not_le_of_lt hr x.2
  rw [allocWalk, if_neg (by simp [hc.valid])]
  dsimp only
  rw [if_pos owner, stays]
  dsimp only
  rw [if_neg small, if_pos owner, if_pos last, size, Nat.zero_max]

/-- R763: one free block that is too small. -/
theorem mcbAllocate_single_of_lt {r pid : Word} (hc : Chain s s.params.mcbBase.toNat [⟨0, n⟩]) (hp : pid ≠ 0)
    (hr : n < r.toNat) : mcbAllocate s r st pid = (s, .outOfMemory n) := by
  have walk : allocWalk mcbFuel st r.toNat s s.params.mcbBase.toNat none 0 = (s, .done none n) :=
    allocWalk_single_of_lt hc hr
  rw [mcbAllocate, if_neg hp, walk]

/-- R757 to R762: what an allocation makes of one free block that is large enough. -/
theorem allocated_single {r : Nat} (pid : Word) (hr : r ≤ n) :
    allocated h [⟨0, n⟩] r st pid = (pieces st r pid ⟨0, n⟩, .ok (dataSegment st r h ⟨0, n⟩)) := by
  have one : fitting r h (merged [⟨0, n⟩]) = [(h, ⟨0, n⟩)] := by simp [fitting, merged, placed, hr]
  have found : chosenOf st (fitting r h (merged [⟨0, n⟩])) = some (h, ⟨0, n⟩) := by
    rw [one]
    cases st <;> simp [chosenOf]
  rw [allocated_of_some pid found]
  simp [merged, placed]

theorem mcbAllocate_single {r pid : Word} (hc : Chain s s.params.mcbBase.toNat [⟨0, n⟩]) (hp : pid ≠ 0) (hr : r.toNat ≤ n) :
    ∃ t, mcbAllocate s r st pid = (t, .ok (dataSegment st r.toNat s.params.mcbBase.toNat ⟨0, n⟩)) ∧
      Chain t s.params.mcbBase.toNat (pieces st r.toNat pid ⟨0, n⟩) ∧ mcbValidate t = none ∧ t = { s with mem := t.mem } := by
  have leaves := mcbAllocate_leaves r st hc (List.cons_ne_nil _ _) hp
  rw [allocated_single pid hr] at leaves
  exact ⟨_, leaves.eq, leaves.chain, leaves.validate, leaves.frame.only⟩

end Single

/-- R761: first fit and best fit take the front of the block, as does last fit where it is taken whole. -/
theorem dataSegment_front {st : Strategy} {r h : Nat} {b : Block} (front : st ≠ .lastFit ∨ r = b.size) :
    dataSegment st r h b = h + 1 := by
  cases st with
  | firstFit | bestFit => rfl
  | lastFit =>
    have whole : r = b.size := front.resolve_left (fun x => x rfl)
    rw [dataSegment, whole, Nat.sub_self]

/-- R761: the block at the front, and the remainder behind it if there is one. -/
theorem pieces_front {st : Strategy} {r : Nat} {b : Block} (pid : Word) (hr : r ≤ b.size)
    (front : st ≠ .lastFit ∨ r = b.size) :
    ∃ rest, pieces st r pid b = ⟨pid, r⟩ :: rest ∧ (r < b.size → rest = [⟨0, b.size - r - 1⟩]) := by
  by_cases lt : r < b.size
  · refine ⟨_, ?_, fun _ => rfl⟩
    unfold pieces
    rw [if_pos lt]
    cases st with
    | firstFit | bestFit => rfl
    | lastFit => exact absurd (front.resolve_left fun x => x rfl) (Nat.ne_of_lt lt)
  · exact ⟨[], by unfold pieces; rw [if_neg lt, Nat.le_antisymm hr (Nat.not_lt.1 lt)], fun x => absurd x lt⟩

/-- R762: the remainder at the front, the block at the tail. -/
theorem pieces_tail {r : Nat} {b : Block} (pid : Word) (lt : r < b.size) :
    pieces .lastFit r pid b = [⟨0, b.size - r - 1⟩, ⟨pid, r⟩] := by
  unfold pieces
  rw [if_pos lt]

/-- Settles O57: any chain by `mcbAllocate_leaves`; one free block by `mcbAllocate_single_of_lt` where it is too small, and else
by `allocated_single`, whose blocks are read off the chain. -/
theorem mcbAllocate : Obligations.McbAllocate := by
  unfold Obligations.McbAllocate
  refine ⟨fun s bs r pid st hc hb hp => ?_, fun s n r pid hs hn hp => ?_⟩
  · have leaves := mcbAllocate_leaves r st hc hb hp
    obtain ⟨chain, valid, only⟩ := leaves.run
    have heads : ∀ k, Heads s.params.mcbBase.toNat bs k ∨
        Heads s.params.mcbBase.toNat (allocated s.params.mcbBase.toNat bs r.toNat st pid).1 k → k < 65536 :=
      fun k hk => hk.elim (heads_lt_of_chain hc) (heads_lt_of_chain leaves.chain)
    refine ⟨chain, valid, only, leaves.keepsOutside fun k hk => ⟨heads k hk, ?_⟩⟩
    rcases hk with ⟨x, hx, e⟩ | ⟨x, hx, e⟩
    · exact ⟨x, List.mem_append_left _ hx, e⟩
    · exact ⟨x, List.mem_append_right _ hx, e⟩
  · have one := chain_of_singleFree hs hn
    refine ⟨fun hr st => mcbAllocate_single_of_lt one hp hr, fun hr st front => ?_, fun lt => ?_⟩
    · obtain ⟨t, answer, chain, valid, only⟩ := mcbAllocate_single (st := st) one hp hr
      obtain ⟨rest, blocks, remainder⟩ := pieces_front (b := ⟨0, n⟩) pid hr front
      rw [dataSegment_front front] at answer
      rw [blocks] at chain
      obtain ⟨-, owner, size, behind⟩ := chain
      refine ⟨t, answer, owner, size, valid, only, fun lt => ?_⟩
      rw [remainder lt] at behind
      obtain ⟨-, owner', size', -⟩ := behind
      exact ⟨owner', size'⟩
    · obtain ⟨t, answer, chain, valid, only⟩ := mcbAllocate_single (st := .lastFit) one hp lt.le
      rw [pieces_tail pid lt] at chain
      obtain ⟨-, owner, size, -, owner', size', -⟩ := chain
      have tail : s.params.mcbBase.toNat + 1 + (n - r.toNat - 1) = s.params.mcbBase.toNat + n - r.toNat := by omega
      rw [tail] at owner' size'
      rw [dataSegment, ← Nat.add_sub_assoc lt.le] at answer
      exact ⟨t, answer, owner, size, owner', size', valid, only⟩

end Sys2Proof.Proofs
end

section
/-! SUPPORT. Coalesce, Free and Reallocate on a chain of blocks (R756, R764, R765). -/

namespace Sys2Proof.Proofs

open Sys2Proof.Machine Sys2Proof.Spec

/-- R764: the header of a data segment above 0 is right before it. -/
theorem headerOf_eq {seg : Word} {h : Nat} (hs : seg.toNat = h + 1) : headerOf seg = h := by
  have := seg.isLt
  rw [headerOf, BitVec.toNat_sub, hs]
  show (2 ^ 16 - 1 + (h + 1)) % 2 ^ 16 = h
  omega

/-- R756: Coalesce with the allocator's fuel, which is enough for any chain. -/
theorem coalesce_of_chain {s : State} {h : Nat} {b : Block} {bs : List Block} (hc : Chain s h (b :: bs)) :
    ∃ t, coalesce mcbFuel s h = (t, none) ∧ HeaderFrame (· = h) s t ∧ Chain t h (absorb b bs) := by
  have length := hc.length_le
  rw [List.length_cons] at length
  exact coalesce_chain hc (by unfold mcbFuel; omega)

/-- R756: Coalesce called at a block of a chain. -/
theorem mcbCoalesce_of_chain {s : State} {h : Word} {b : Block} {bs : List Block} (hc : Chain s h.toNat (b :: bs)) :
    ∃ t, mcbCoalesce s h = (t, none) ∧ HeaderFrame (· = h.toNat) s t ∧ Chain t h.toNat (absorb b bs) := by
  obtain ⟨t, coalesces, frame, chain⟩ := coalesce_of_chain hc
  refine ⟨t, ?_, frame, chain⟩
  rw [mcbCoalesce, if_neg (by simp [hc.valid]), coalesces]
  rfl

/-- R765: a block anywhere in a chain cut in two, the remainder free. -/
theorem cut_behind {s : State} {h m : Nat} {xs bs : List Block} {b : Block} (hc : Chain s h (xs ++ b :: bs)) (hm : m < b.size) :
    let n := h + span xs
    let u := setMcbSize (setMcbSig (setMcb s (n + 1 + m) (mcbSig s n) 0 (b.size - m - 1)) n sigMore) n m
    let cs := { b with size := m } :: ⟨0, b.size - m - 1⟩ :: bs
    Chain u h (xs ++ cs) ∧ HeaderFrame (Heads n cs) s u := by
  intro n u cs
  obtain ⟨chain, frame⟩ := hc.suffix.cut (o := 0) hm
  have frame' : HeaderFrame (Heads n cs) s u := frame.mono <| by
    rintro k (rfl | rfl)
    · exact heads_cons.2 (.inl rfl)
    · exact heads_cons.2 (.inr (heads_cons.2 (.inl rfl)))
  exact ⟨chain_replace_suffix hc (List.cons_ne_nil _ _) (List.cons_ne_nil _ _) chain frame', frame'⟩

theorem memRead8_setMcbOwner_of_ne {s : State} {h a : Nat} (o : Word) (hh : h < 65536) (low : a ≠ 16 * h + 1)
    (high : a ≠ 16 * h + 2) : (setMcbOwner s h o).memRead8 a = s.memRead8 a := by
  rw [setMcbOwner, memRead8_memWrite16, nextPhys_mcbAddr, mcbAddr_of_lt hh (by decide), mcbAddr_of_lt hh (by decide),
    if_neg low, if_neg high]

section Resized
variable {seg m : Nat} {b c : Block} {bs cs : List Block} (absorbs : absorb b bs = c :: cs)
include absorbs

theorem resized_of_lt (lt : c.size < m) : resized seg m b bs = (c :: cs, .tooSmall c.size) := by
  simp only [resized, absorbs, if_pos lt]

theorem resized_of_eq (eq : c.size = m) : resized seg m b bs = (c :: cs, .ok seg) := by
  simp only [resized, absorbs, eq, Nat.lt_irrefl, if_false]

theorem resized_of_gt (gt : m < c.size) :
    resized seg m b bs = ({ c with size := m } :: ⟨0, c.size - m - 1⟩ :: cs, .ok seg) := by
  simp only [resized, absorbs, if_neg (Nat.lt_asymm gt), if_pos gt]

end Resized

section DataSegment
variable {s : State} {before after : List Block} {b : Block} {seg : Word}
  (hc : Chain s s.params.mcbBase.toNat (before ++ b :: after)) (hseg : seg.toNat = s.params.mcbBase.toNat + span before + 1)
include hc hseg

/-- R764: Free of a block of a chain. -/
theorem mcbFree_of_chain :
    mcbFree s seg = (setMcbOwner s (s.params.mcbBase.toNat + span before) 0, .ok seg.toNat) ∧
      Chain (setMcbOwner s (s.params.mcbBase.toNat + span before) 0) s.params.mcbBase.toNat
        (before ++ { b with owner := 0 } :: after) := by
  have inner := hc.suffix
  have chain := chain_replace_suffix hc (List.cons_ne_nil _ _) (List.cons_ne_nil _ _) (inner.own 0)
    (HeaderFrame.setOwner (heads_cons.2 (.inl rfl)) 0)
  refine ⟨?_, chain⟩
  rw [mcbFree, headerOf_eq hseg, if_neg (by simp [inner.valid])]
  exact okAfterValidate_of_chain chain (by simp)

theorem mcbFree_leaves : McbLeaves s (mcbFree s seg) (before ++ { b with owner := 0 } :: after) (.ok seg.toNat)
    (· = s.params.mcbBase.toNat + span before) := by
  obtain ⟨frees, chain⟩ := mcbFree_of_chain hc hseg
  rw [frees]
  exact ⟨rfl, fun _ => McbResult.noConfusion, chain, by simp, HeaderFrame.setOwner (P := (· = _)) rfl 0⟩

/-- R765: Reallocate of a block of a chain: coalesced forward, then too small, taken whole or cut. -/
theorem mcbReallocate_leaves (m : Word) :
    let x := resized seg.toNat m.toNat b after
    McbLeaves s (mcbReallocate s seg m) (before ++ x.1) x.2 (Heads (s.params.mcbBase.toNat + span before) x.1) := by
  have inner := hc.suffix
  obtain ⟨c, cs, absorbs⟩ := List.exists_cons_of_ne_nil (absorb_ne_nil b after)
  obtain ⟨t, coalesces, changed, coalesced⟩ := coalesce_of_chain inner
  rw [absorbs] at coalesced
  have frame (d : Block) (ds : List Block) : HeaderFrame (Heads (s.params.mcbBase.toNat + span before) (d :: ds)) s t :=
    changed.mono fun _ hk => heads_cons.2 (.inl hk)
  have nonempty (d : Block) (ds : List Block) : before ++ d :: ds ≠ [] :=
    List.append_ne_nil_of_right_ne_nil _ (List.cons_ne_nil _ _)
  have chain := chain_replace_suffix hc (List.cons_ne_nil _ _) (List.cons_ne_nil _ _) coalesced (frame c cs)
  unfold mcbReallocate
  rw [headerOf_eq hseg, if_neg (by simp [inner.valid]), coalesces]
  dsimp only
  rw [coalesced.2.2.1]
  rcases Nat.lt_trichotomy c.size m.toNat with lt | eq | gt
  · rw [if_pos lt, resized_of_lt absorbs lt]
    exact ⟨rfl, fun _ => McbResult.noConfusion, chain, nonempty _ _, frame _ _⟩
  · rw [if_neg eq.not_lt, if_neg eq.not_gt, resized_of_eq absorbs eq]
    exact leaves_okAfterValidate chain (nonempty _ _) (frame _ _) _
  · rw [if_neg gt.not_gt, if_pos gt, resized_of_gt absorbs gt]
    obtain ⟨chain', frame'⟩ := cut_behind chain gt
    exact leaves_okAfterValidate chain' (nonempty _ _) ((frame _ _).trans frame') _

end DataSegment

/-- Settles O60: Coalesce by `mcbCoalesce_of_chain`, Free by `mcbFree_leaves`, of which only the two owner bytes are written,
and Reallocate by `mcbReallocate_leaves`. -/
theorem mcbChainOperations : Obligations.McbChainOperations := by
  unfold Obligations.McbChainOperations
  constructor
  · intro s h b bs hc
    obtain ⟨t, coalesces, frame, chain⟩ := mcbCoalesce_of_chain hc
    have runs : hostAct (.mcb (.coalesce h)) s = { t with mcbResult := none } := by
      rw [hostAct, runMcb, coalesces, withMcbAnswer]
    rw [runs]
    refine ⟨chain.congr fun _ _ _ => ⟨rfl, rfl, rfl⟩, ?_, ?_⟩
    · exact congrArg (fun u : State => { u with mcbResult := none }) frame.only
    · show KeepsOutside _ s t
      exact keepsOutside_of_frame frame (by rintro _ rfl; exact ⟨h.isLt, _, List.mem_singleton.2 rfl, rfl⟩)
  · intro s before after b seg m base hc hseg
    have place : seg.toNat - 1 = s.params.mcbBase.toNat + span before := Nat.sub_eq_of_eq_add hseg
    refine ⟨?free, ?reallocate⟩
    case free =>
      have leaves := mcbFree_leaves hc hseg
      obtain ⟨chain, valid, only⟩ := leaves.run
      refine ⟨chain, valid, only, fun a low high => ?_⟩
      rw [place] at low high
      show (withMcbResult (mcbFree s seg)).memRead8 a = _
      rw [leaves.withMcbResult_eq, (mcbFree_of_chain hc hseg).1]
      exact memRead8_setMcbOwner_of_ne 0 (by have := seg.isLt; omega) low high
    case reallocate =>
      have leaves := mcbReallocate_leaves hc hseg m
      obtain ⟨chain, valid, only⟩ := leaves.run
      refine ⟨chain, valid, only, leaves.keepsOutside fun k hk => ⟨?_, ?_⟩⟩
      · exact heads_lt_of_chain leaves.chain (heads_append_right hk)
      · rwa [place]

end Sys2Proof.Proofs
end

section
/-! SUPPORT. The interrupt-call and the return from it (R801, R811): the frame on the stack, and IRET as its inverse. -/

namespace Sys2Proof.Proofs

open Sys2Proof.Machine Sys2Proof.Spec

/-- R801: the six bytes at the new SS:SP are IP, CS and FLAGS. -/
theorem interruptCall_words (s : State) (v : Byte) :
    (interruptCall v s).segRead16 s.segs.ss (s.regs.sp - 6) = s.ip ∧
      (interruptCall v s).segRead16 s.segs.ss (s.regs.sp - 4) = s.segs.cs ∧
      (interruptCall v s).segRead16 s.segs.ss (s.regs.sp - 2) = s.flags := by
  have pushed : (interruptCall v s).mem = s.pushFrame.mem := by rw [interruptCall_eq]
  simp only [segRead16_congr pushed]
  exact ⟨pushFrame_ip s, pushFrame_cs s, pushFrame_flags s⟩

/-- R801: IF and TF are clear after the interrupt-call. -/
theorem interruptCall_clears (s : State) (v : Byte) :
    ie (interruptCall v s).flags = false ∧ tf (interruptCall v s).flags = false := by
  rw [interruptCall_eq]
  exact ⟨(getLsbD_setFlag_tf _ _ 9).trans (getLsbD_setFlag_same _ .ie _), getLsbD_setFlag_same _ .tf _⟩

/-- Settles O20: the interrupt-call as one record update (`interruptCall_eq`), the frame it pushes (`interruptCall_words`) and
what it leaves unchanged (`interruptCall_frame`). -/
theorem interruptCallFrame : Obligations.InterruptCallFrame := by
  unfold Obligations.InterruptCallFrame
  intro s v t
  have whole : t = _ := interruptCall_eq s v
  have frame := interruptCall_frame (s := s) v
  obtain ⟨ip, cs, flags⟩ := interruptCall_words s v
  obtain ⟨ieClear, tfClear⟩ := interruptCall_clears s v
  exact ⟨congrArg State.regs whole, ip, cs, flags, congrArg State.ip whole, congrArg State.segs whole, ieClear, tfClear,
    frame.flags, frame.mem, by rw [whole]⟩

/-- Settles O21: IRET (`iret_eq`) reads back the three words of the frame (`interruptCall_words`). -/
theorem iretInvertsInterruptCall : Obligations.IretInvertsInterruptCall := by
  unfold Obligations.IretInvertsInterruptCall
  intro s v
  obtain ⟨ip, cs, flags⟩ := interruptCall_words s v
  have sp : (interruptCall v s).regs.sp = s.regs.sp - 6 := congrArg (·.regs.sp) (interruptCall_eq s v)
  have ss : (interruptCall v s).segs.ss = s.segs.ss := congrArg (·.segs.ss) (interruptCall_eq s v)
  have atCs : s.regs.sp - 6 + 2 = s.regs.sp - 4 := by bv_omega
  have atFlags : s.regs.sp - 6 + 4 = s.regs.sp - 2 := by bv_omega
  refine ⟨_, congrArg Host.Outcome.next (iret_eq _), ?_⟩
  simp only [sp, ss, atCs, atFlags, ip, cs, flags]
  simp [interruptCall_eq]

end Sys2Proof.Proofs
end

section
/-! SUPPORT. The PIT (R816 to R825): what a write makes of the channel it reaches, the byte a read answers, and cycles that add
up. -/

namespace Sys2Proof.Proofs

open Sys2Proof.Machine Sys2Proof.Spec

/-! ### Writes to the control port (R817 to R820) -/

/-- R817: the access mode of the field RW. -/
theorem ofRw_eq (rw : Nat) : Access.ofRw rw = if rw = 1 then .lsb else if rw = 2 then .msb else .lsbMsb := by
  unfold Access.ofRw
  split
  · rfl
  · rfl
  · next h1 h2 => rw [if_neg h1, if_neg h2]

/-- R817: the field M, bits 3 to 1 of a control word. -/
theorem modeField_eq (v : Byte) : v.extractLsb' 1 3 = BitVec.ofNat 3 (v.toNat / 2) := by
  rw [← BitVec.toNat_inj, BitVec.extractLsb'_toNat, Nat.shiftRight_eq_div_pow, BitVec.toNat_ofNat]

/-- What the control word `v` makes of the channel it selects. -/
def commanded (c : Channel) (v : Byte) : Channel :=
  if v.toNat / 16 % 4 = 0 then c.latchCommand
  else c.reprogram (Access.ofRw (v.toNat / 16 % 4)) (v.extractLsb' 1 3) (v.getLsbD 0)

theorem write_control (p : Pit) (v : Byte) (h : v.toNat / 64 < 3) :
    p.write 3 v = p.setChannel (v.toNat / 64) (commanded (p.channel (v.toNat / 64)) v) := by
  rw [Pit.write, if_pos rfl, Pit.control, commanded, if_neg h.ne, apply_ite (p.setChannel (v.toNat / 64))]

theorem channel_write_control {j : Nat} (p : Pit) (v : Byte) (h : v.toNat / 64 < 3) (hj : j < 3) :
    (p.write 3 v).channel j =
      if j = v.toNat / 64 then commanded (p.channel (v.toNat / 64)) v else p.channel j := by
  rw [write_control p v h, Pit.channel_setChannel p _ h hj]

/-! ### Writes to the data ports (R821, R822) -/

theorem mkWord_eq_ofNat (h l : Byte) : mkWord h l = BitVec.ofNat 16 (256 * h.toNat + l.toNat) := by
  rw [← mkWord_toNat, BitVec.ofNat_toNat, BitVec.setWidth_eq]

theorem channel_write_data {i j : Nat} (p : Pit) (v : Byte) (hi : i < 3) (hj : j < 3) :
    (p.write i v).channel j = if j = i then (p.channel i).writeData v else p.channel j := by
  rw [Pit.write, if_neg hi.ne, Pit.channel_setChannel p _ hi hj]

/-- R821: a whole count written by one byte. -/
theorem writeData_lsb {c : Channel} (h : c.access = .lsb) (v : Byte) :
    c.writeData v = { c with count := BitVec.ofNat 16 v.toNat }.activate := by
  simp [Channel.writeData, h, mkWord_eq_ofNat]

theorem writeData_msb {c : Channel} (h : c.access = .msb) (v : Byte) :
    c.writeData v = { c with count := BitVec.ofNat 16 (256 * v.toNat) }.activate := by
  simp [Channel.writeData, h, mkWord_eq_ofNat]

/-- R821: the low byte waits for the high one. -/
theorem writeData_low {c : Channel} (h : c.access = .lsbMsb) (low : c.wtoggle = false) (v : Byte) :
    c.writeData v = { c with wlow := v, wtoggle := true } := by
  rw [Channel.writeData, h]
  exact if_neg (Bool.eq_false_iff.mp low)

theorem writeData_high {c : Channel} (h : c.access = .lsbMsb) (high : c.wtoggle = true) (v : Byte) :
    c.writeData v =
      { c with count := BitVec.ofNat 16 (256 * v.toNat + c.wlow.toNat), wtoggle := false }.activate := by
  simp only [Channel.writeData, h, mkWord_eq_ofNat]
  exact if_pos high

/-- Settles O54: a control word reaches the channel it selects (`channel_write_control`), a data byte that of its port
(`channel_write_data`), and there each access mode has its lemma. -/
theorem pitWrites : Obligations.PitWrites := by
  unfold Obligations.PitWrites
  constructor
  · rintro p v sc rw rfl rfl
    refine ⟨fun none => ?_, fun sel j hj other => ?_, fun sel latches => ?_, fun sel programs => ?_⟩
    · exact (if_pos rfl).trans (if_pos none)
    · rw [channel_write_control p v sel hj, if_neg other]
    · rw [channel_write_control p v sel sel, if_pos rfl, commanded, if_pos latches, Channel.latchCommand]
    · rw [channel_write_control p v sel sel, if_pos rfl, commanded, if_neg programs, ofRw_eq, modeField_eq,
        getLsbD_zero_toNat, Channel.reprogram]
  · intro p i v hi c d act
    have written : d = c.writeData v := (channel_write_data p v hi hi).trans (if_pos rfl)
    refine ⟨fun j hj other => ?_, fun lsb => ?_, fun msb => ?_, fun both low => ?_, fun both high => ?_⟩
    · rw [channel_write_data p v hi hj, if_neg other]
    · exact written.trans (writeData_lsb lsb v)
    · exact written.trans (writeData_msb msb v)
    · exact written.trans (writeData_low both low v)
    · exact written.trans (writeData_high both high v)

/-! ### Reads (R816, R823) -/

/-- R823: the latched value, else the counting element, of which 65536 reads as 0. -/
theorem value_toNat (c : Channel) : c.value.toNat = if c.latched then c.latch.toNat else c.ce % 65536 := by
  rw [Channel.value, apply_ite BitVec.toNat, BitVec.toNat_ofNat]

/-- R823: a channel with one byte per value. -/
theorem read_lsb {c : Channel} (h : c.access = .lsb) :
    c.readByte = loByte c.value ∧ c.afterRead = { c with latched := false } := by
  rw [Channel.readByte, Channel.afterRead, h]
  exact ⟨rfl, rfl⟩

theorem read_msb {c : Channel} (h : c.access = .msb) :
    c.readByte = hiByte c.value ∧ c.afterRead = { c with latched := false } := by
  rw [Channel.readByte, Channel.afterRead, h]
  exact ⟨rfl, rfl⟩

/-- R823: the first read of a value of two bytes. -/
theorem read_low {c : Channel} (h : c.access = .lsbMsb) (low : c.rtoggle = false) :
    c.readByte = loByte c.value ∧ c.afterRead = { c with rtoggle := true } := by
  rw [Channel.readByte, Channel.afterRead, h]
  exact ⟨if_neg (Bool.eq_false_iff.mp low), if_neg (Bool.eq_false_iff.mp low)⟩

/-- R823: the second read, which releases the latch. -/
theorem read_high {c : Channel} (h : c.access = .lsbMsb) (high : c.rtoggle = true) :
    c.readByte = hiByte c.value ∧ c.afterRead = { c with rtoggle := false, latched := false } := by
  rw [Channel.readByte, Channel.afterRead, h]
  exact ⟨if_pos high, if_pos high⟩

/-- R818: a latched value stays what it is while cycles pass. -/
theorem value_runCycles_of_latched {c : Channel} (h : c.latched = true) (n : Nat) : (c.runCycles n).value = c.latch := by
  rw [Channel.runCycles_eq]
  exact if_pos h

theorem channel_afterRead {i j : Nat} (p : Pit) (hi : i < 3) (hj : j < 3) :
    (p.afterRead i).channel j = if j = i then (p.channel i).afterRead else p.channel j := by
  rw [Pit.afterRead, if_neg hi.ne, Pit.channel_setChannel p _ hi hj]

/-- R818, R823: two reads of a latched value, with `n` cycles between them. -/
theorem two_reads_of_latched {c : Channel} (both : c.access = .lsbMsb) (low : c.rtoggle = false) (latched : c.latched = true)
    (n : Nat) :
    c.readByte = loByte c.latch ∧ (c.afterRead.runCycles n).readByte = hiByte c.latch ∧
      (c.afterRead.runCycles n).afterRead.latched = false ∧ (c.afterRead.runCycles n).afterRead.rtoggle = false := by
  obtain ⟨first, after⟩ := read_low both low
  have kept : c.afterRead.latched = true := by rw [after]; exact latched
  obtain ⟨second, released⟩ := read_high (c := c.afterRead.runCycles n) (by rw [Channel.runCycles_eq, after]; exact both)
    (by rw [Channel.runCycles_eq, after])
  refine ⟨first.trans (congrArg loByte (if_pos latched)), second.trans ?_, by rw [released], by rw [released]⟩
  rw [value_runCycles_of_latched kept, after]

/-- Settles O55: the read of each access mode (`read_lsb`, `read_msb`, `read_low`, `read_high`), two reads of a latched value
(`two_reads_of_latched`), and the channel of each port (`channel_afterRead`). -/
theorem pitLatchedRead : Obligations.PitLatchedRead := by
  unfold Obligations.PitLatchedRead
  refine ⟨fun c => ?_, fun c n both low latched => ?_, fun p => ⟨rfl, rfl, fun i hi => ⟨?_, ?_, fun j hj other => ?_⟩⟩⟩
  · intro v
    have lo : (loByte c.value).toNat = v % 256 := by rw [loByte_toNat, value_toNat]
    have hi : (hiByte c.value).toNat = v / 256 := by rw [hiByte_toNat, value_toNat]
    refine ⟨fun lsb => ?_, fun msb => ?_, fun both low => ?_, fun both high => ?_⟩
    · exact (read_lsb lsb).imp_left fun e => (congrArg BitVec.toNat e).trans lo
    · exact (read_msb msb).imp_left fun e => (congrArg BitVec.toNat e).trans hi
    · exact (read_low both low).imp_left fun e => (congrArg BitVec.toNat e).trans lo
    · exact (read_high both high).imp_left fun e => (congrArg BitVec.toNat e).trans hi
  · obtain ⟨first, second, released⟩ := two_reads_of_latched both low latched n
    refine ⟨?_, released⟩
    rw [first, second, loByte_toNat, hiByte_toNat]
    exact Nat.div_add_mod c.latch.toNat 256
  · exact if_neg hi.ne
  · rw [channel_afterRead p hi hi, if_pos rfl]
  · rw [channel_afterRead p hi hj, if_neg other]

/-! ### Cycles (R824, R825) -/

theorem runCycles_inactive {c : Channel} (h : c.active = false) (n : Nat) : c.runCycles n = c := if_neg (Bool.eq_false_iff.mp h)

theorem runCycles_below {c : Channel} (active : c.active = true) {n : Nat} (h : n < c.ce) :
    c.runCycles n = { c with ce := c.ce - n } := by
  rw [Channel.runCycles, if_pos active, if_pos h]

/-- R824: an active channel after `n` cycles stands between 1 and its reload value, some number of reloads further on. -/
theorem ce_runCycles {c : Channel} (inv : ChannelInv c) (active : c.active = true) (n : Nat) :
    1 ≤ (c.runCycles n).ce ∧ (c.runCycles n).ce ≤ c.reload ∧ ∃ k, n + (c.runCycles n).ce = c.ce + k * c.reload := by
  have inv' := channelInv_runCycles inv n
  have kept := Channel.runCycles_eq c n
  have active' : (c.runCycles n).active = true := by rw [kept]; exact active
  have reload' : (c.runCycles n).reload = c.reload := by rw [kept]
  refine ⟨inv'.active active', reload' ▸ inv'.ce, ?_⟩
  rw [Channel.runCycles, if_pos active]
  split
  · next below => exact ⟨0, by dsimp only; omega⟩
  · next reaches =>
    have positive := (inv.active active).trans inv.ce
    have within := Nat.mod_lt (n - c.ce) positive
    have whole := Nat.div_add_mod' (n - c.ce) c.reload
    exact ⟨(n - c.ce) / c.reload + 1, by dsimp only; rw [Nat.succ_mul]; omega⟩

/-- Two places of the counter that whole reloads part are one. -/
theorem eq_of_add_mul_eq {e f r a b : Nat} (he : 1 ≤ e ∧ e ≤ r) (hf : 1 ≤ f ∧ f ≤ r) (h : e + a * r = f + b * r) :
    e = f := by
  have same : (e - 1 + a * r) % r = (f - 1 + b * r) % r := congrArg (· % r) (by omega)
  rw [Nat.add_mul_mod_self_right, Nat.add_mul_mod_self_right, Nat.mod_eq_of_lt (by omega), Nat.mod_eq_of_lt (by omega)] at same
  omega

/-- R824: `n` cycles and then `m` more are `n + m` cycles. -/
theorem runCycles_add {c : Channel} (inv : ChannelInv c) (n m : Nat) : (c.runCycles n).runCycles m = c.runCycles (n + m) := by
  cases active : c.active with
  | false => simp only [runCycles_inactive active]
  | true =>
    have kept := Channel.runCycles_eq c n
    have active' : (c.runCycles n).active = true := by rw [kept]; exact active
    have reload' : (c.runCycles n).reload = c.reload := by rw [kept]
    obtain ⟨-, -, j, first⟩ := ce_runCycles inv active n
    obtain ⟨low, high, k, second⟩ := ce_runCycles (channelInv_runCycles inv n) active' m
    obtain ⟨low', high', l, together⟩ := ce_runCycles inv active (n + m)
    rw [reload'] at high second
    have same : ((c.runCycles n).runCycles m).ce = (c.runCycles (n + m)).ce :=
      eq_of_add_mul_eq (a := l) (b := j + k) ⟨low, high⟩ ⟨low', high'⟩ (by rw [Nat.add_mul]; omega)
    rw [Channel.runCycles_eq (c.runCycles n), Channel.runCycles_eq c (n + m), same, kept]

/-- R824: a channel that reaches zero has started again at least once. -/
theorem runCycles_reaches {c : Channel} (inv : ChannelInv c) (active : c.active = true) {n : Nat} (h : c.ce ≤ n) :
    ∃ e k, c.runCycles n = { c with ce := e } ∧ 1 ≤ e ∧ e ≤ c.reload ∧ n + e = c.ce + (k + 1) * c.reload := by
  obtain ⟨low, high, k, reloads⟩ := ce_runCycles inv active n
  cases k with
  | zero => omega
  | succ k => exact ⟨_, k, Channel.runCycles_eq c n, low, high, reloads⟩

theorem channel_runCycles (p : Pit) (n i : Nat) : (p.runCycles n).channel i = (p.channel i).runCycles n := by
  unfold Pit.channel
  split <;> rfl

theorem fires_iff (c : Channel) (n : Nat) : c.fires n = true ↔ c.active = true ∧ c.ce ≤ n := by
  rw [Channel.fires, Bool.and_eq_true, decide_eq_true_iff]

/-- Settles O56: the counter of a channel is determined by its range and the reloads passed (`runCycles_add`,
`runCycles_reaches`), and the machine raises INTR exactly where channel 0 fires (`fires_iff`). -/
theorem pitRunCycles : Obligations.PitRunCycles := by
  unfold Obligations.PitRunCycles
  refine ⟨fun c n m inv => ⟨fun h => runCycles_inactive h n, fun active => runCycles_below active,
    fun active => runCycles_reaches inv active, runCycles_add inv n m⟩,
    fun p n i _ => channel_runCycles p n i, fun s n => ?_⟩
  rw [← fires_iff]
  exact ⟨fun fires => if_pos fires, fun quiet => if_neg quiet⟩

end Sys2Proof.Proofs
end

section
/-! SUPPORT. The host's actions (R829, R831): the bytes of an installed callback stub (R712) and of a vector-table entry (R802). -/

namespace Sys2Proof.Proofs

open Sys2Proof.Machine Sys2Proof.Spec

/-- R829: the host's turn. -/
theorem step_host {s : State} {a : HostAction} {rest : List Turn} (running : s.status = .running)
    (turn : s.sched = .host a :: rest) : Machine.step s = .next (hostAct a { s with sched := rest }) := by
  rw [step_running running, takeTurn, turn]

/-! ### Registers -/

theorem sreg_setSreg (s : State) (r : SegReg) (v : Word) :
    (s.setSreg r v).sreg r = v ∧ ∀ q, q ≠ r → (s.setSreg r v).sreg q = s.sreg q :=
  ⟨(Segs.get_set s.segs r r v).trans (if_pos rfl), fun q h => (Segs.get_set s.segs r q v).trans (if_neg h)⟩

/-! ### Memory -/

/-- R151: two offsets of one segment are one byte only if they are the same. -/
theorem phys_eq_iff (seg o p : Word) : phys seg o = phys seg p ↔ o = p := by
  refine ⟨fun h => ?_, fun h => congrArg (phys seg) h⟩
  simp only [phys, Config.memSize] at h
  apply BitVec.eq_of_toNat_eq
  omega

/-- R712: the stub's four bytes, the last written first to be seen. -/
theorem memRead8_writeStub (s : State) (seg off id : Word) (a : Nat) :
    (s.writeBytes seg off (callbackStub id)).memRead8 a =
      if a = phys seg (off + 3) then hiByte id else if a = phys seg (off + 2) then loByte id
      else if a = phys seg (off + 1) then 0xF8 else if a = phys seg off then 0xFE else s.memRead8 a := by
  have second : off + 1 + 1 = off + 2 := by bv_omega
  have third : off + 2 + 1 = off + 3 := by bv_omega
  simp only [callbackStub, State.writeBytes, State.segWrite8, memRead8_memWrite8, second, third]

/-- R712: the stub `FE F8 id_lo id_hi` as it is read. -/
theorem segRead8_writeStub (s : State) (seg off id : Word) :
    let t := s.writeBytes seg off (callbackStub id)
    t.segRead8 seg off = 0xFE ∧ t.segRead8 seg (off + 1) = 0xF8 ∧ t.segRead8 seg (off + 2) = loByte id ∧
      t.segRead8 seg (off + 3) = hiByte id := by
  simp [State.segRead8, memRead8_writeStub, phys_eq_iff]

/-- Below the top of memory a word's high byte is at the next address. -/
theorem nextPhys_of_lt {a : Nat} (h : a + 1 < Config.memSize) : nextPhys a = a + 1 := Nat.mod_eq_of_lt h

/-- R802: an entry of the vector table: IP word, then CS word. -/
theorem memRead8_installVector (s : State) (v : Byte) (off seg : Word) (a : Nat) :
    (hostAct (.installVector v off seg) s).memRead8 a =
      if a = 4 * v.toNat + 2 then BitVec.ofNat 8 seg.toNat
      else if a = 4 * v.toNat + 3 then BitVec.ofNat 8 (seg.toNat / 256)
      else if a = 4 * v.toNat then BitVec.ofNat 8 off.toNat
      else if a = 4 * v.toNat + 1 then BitVec.ofNat 8 (off.toNat / 256) else s.memRead8 a := by
  have := v.isLt
  rw [hostAct, memRead8_memWrite16_ofNat, memRead8_memWrite16_ofNat, nextPhys_of_lt (by unfold Config.memSize; omega),
    nextPhys_of_lt (by unfold Config.memSize; omega)]

/-! ### The actions with an effect of several parts -/

/-- R163 to R165: a port read by the host. -/
theorem hostAct_ioRead (s : State) (port : Word) :
    let p := port.toNat
    let t := hostAct (.ioRead port) s
    (0x40 ≤ p ∧ p ≤ 0x5F → t = { s with pit := s.pit.afterRead ((p - 0x40) % 4) }) ∧
      ((0x60 ≤ p ∧ p ≤ 0x64) ∨ (0x3C0 ≤ p ∧ p ≤ 0x3DF) → t = { s with draws := s.draws + 1 }) ∧
      (p < 0x40 ∨ (0x64 < p ∧ p < 0x3C0) ∨ 0x3DF < p → t = s) := by
  refine ⟨fun h => ?_, fun h => ?_, fun h => ?_⟩
  · obtain ⟨-, read, -⟩ := accesses_of_pit (portOwner_pit h.1 h.2) s 0
    exact read
  · obtain ⟨-, read, -⟩ := accesses_of_external (portOwner_external h) s 0
    exact read
  · obtain ⟨-, read, -⟩ := accesses_of_nobody (portOwner_nobody (p := port) (by omega) (by omega)) s 0
    exact read

/-- R163 to R165: a port write by the host. -/
theorem hostAct_ioWrite (s : State) (port : Word) (v : Byte) :
    let p := port.toNat
    let t := hostAct (.ioWrite port v) s
    (0x40 ≤ p ∧ p ≤ 0x5F → t = { s with pit := s.pit.write ((p - 0x40) % 4) v }) ∧ (p < 0x40 ∨ 0x5F < p → t = s) := by
  refine ⟨fun h => ?_, fun h => ?_⟩
  · obtain ⟨-, -, written⟩ := accesses_of_pit (portOwner_pit h.1 h.2) s v
    exact written
  · by_cases device : (0x60 ≤ port.toNat ∧ port.toNat ≤ 0x64) ∨ (0x3C0 ≤ port.toNat ∧ port.toNat ≤ 0x3DF)
    · obtain ⟨-, -, written⟩ := accesses_of_external (portOwner_external device) s v
      exact written
    · obtain ⟨-, -, written⟩ := accesses_of_nobody (portOwner_nobody (p := port) (by omega) (by omega)) s v
      exact written

/-- Settles O11: the host's turn (`step_host`), and each action as it is defined; those of several parts have their lemmas:
ports (`hostAct_ioRead`, `hostAct_ioWrite`), the callback stub (`segRead8_writeStub`) with the registry
(`Registry.find_put`), and the vector table (`memRead8_installVector`). -/
theorem hostActions : Obligations.HostActions := by
  unfold Obligations.HostActions
  refine ⟨fun _ _ _ => step_host, fun s => ⟨fun _ _ _ => rfl, fun _ _ => rfl, fun r v => ?register, fun r v => ?segment,
    fun _ => rfl, fun _ => rfl, rfl, rfl, fun _ => rfl, fun _ => rfl, hostAct_ioRead s, hostAct_ioWrite s,
    fun id off handler => ?callback, fun v off seg => ?vector, rfl, rfl, fun _ => rfl, fun _ => rfl⟩⟩
  case register =>
    obtain ⟨same, others⟩ := writeOp16_reg s r v
    exact ⟨same, others, rfl⟩
  case segment =>
    obtain ⟨same, others⟩ := sreg_setSreg s r v
    exact ⟨same, others, rfl⟩
  case callback =>
    intro t seg
    have whole : t = _ := hostAct_installCallback s id off handler
    have read (a : Nat) : t.memRead8 a = (s.writeBytes seg off (callbackStub id)).memRead8 a :=
      congrArg (·.mem.read a) whole
    obtain ⟨opcode, modrm, low, high⟩ := segRead8_writeStub s seg off id
    refine ⟨?_, fun k other rising => ?_, (read _).trans opcode, (read _).trans modrm,
      (read _).trans (low.trans (loByte_eq id)), (read _).trans (high.trans (hiByte_eq id)), fun a outside => ?_,
      by rw [whole]⟩
    · exact (congrArg (·.registry.find id) whole).trans (Registry.find_put_self _ _ _)
    · exact (congrArg (·.registry.find k) whole).trans (Registry.find_put _ _ _ _ rising other)
    · simp only [List.mem_cons, List.not_mem_nil, or_false, not_or] at outside
      obtain ⟨h0, h1, h2, h3⟩ := outside
      rw [read, memRead8_writeStub, if_neg h3, if_neg h2, if_neg h1, if_neg h0]
  case vector =>
    intro t e
    have read := memRead8_installVector s v off seg
    refine ⟨(read e).trans (by simp [e]), (read (e + 1)).trans (by simp [e]), (read (e + 2)).trans (by simp [e]),
      (read (e + 3)).trans (by simp [e]), fun a outside => ?_, rfl⟩
    rw [read, if_neg (by omega), if_neg (by omega), if_neg (by omega), if_neg (by omega)]

end Sys2Proof.Proofs
end
